-- ==== Sys2Proof/Word.lean ====
section
/-! DEFINITION. The word types of the core (00_scope.md R10: every value is unsigned) and the numbers' plainest facts. -/

namespace Sys2Proof

/-- An 8-bit value: a step byte, an event word, a PWM value, a counter (00_scope.md R10). -/
abbrev Byte := BitVec 8

/-- A 16-bit value: the LFSR state, the tempo accumulator, a tempo threshold (00_scope.md R8, R10). -/
abbrev Word16 := BitVec 16

end Sys2Proof
end

