-- ==== Sys2Proof/Config.lean ====
section
/-! DEFINITION. The configuration of one instance of the core (00_scope.md R8), the example instance that
State.reset takes (95_test_vectors.md section 2, EXCFG), and the one free value of the model. -/

namespace Sys2Proof

/-- `VARIANT` (00_scope.md R2, R8): which of the two variants the instance is. -/
inductive Variant where
  | noise
  | dpcm
  deriving DecidableEq, Repr

/-- `DPCM_BIT_ORDER` (00_scope.md R8, 41_step_decoder.md R106). -/
inductive BitOrder where
  | msbFirst
  | lsbFirst
  deriving DecidableEq, Repr

/-- `LOWRES_FORM` (00_scope.md R8): the reading of the 7-bit LFSR step, PINNED (40_lfsr.md R92, normative) or
SHIFTED (40_lfsr.md R93, the admitted alternative). -/
inductive LowresForm where
  | pinned
  | shifted
  deriving DecidableEq, Repr

/-- The configuration parameters of 00_scope.md R8, constant for the life of an instance. `PROGRAM` is the contents of
the ROM and stands in the state beside this record; `N_TEMPO` is `Config.nTempo`; `RES_POLARITY`, `PAT_IN_W` and the
register widths have one value each in R8 and are part of the definitions that use them. -/
structure Config where
  /-- `VARIANT`. -/
  variant : Variant
  /-- `NPAT`, the number of patterns. -/
  npat : Nat
  /-- `L`, the steps per pattern (noise: bytes, DPCM: bits). -/
  len : Nat
  /-- `DELAY_TABLE[0..15]`. -/
  delayTable : Vector Byte 16
  /-- `VOL_MASK[0..7]`. -/
  volMask : Vector Byte 8
  /-- `VOL_OFFSET[0..7]`. -/
  volOffset : Vector Byte 8
  /-- `TEMPO_TABLE[0..N_TEMPO-1]`, in hardware ticks. -/
  tempoTable : List Word16
  /-- `SEED`. -/
  seed : Word16
  /-- `QUIESCENT`, the PWM value in silence. -/
  quiescent : Byte
  /-- `DPCM_DELTA`. -/
  dpcmDelta : Byte
  /-- `DPCM_BIT_ORDER`. -/
  dpcmBitOrder : BitOrder
  /-- `LOWRES_FORM`. -/
  lowresForm : LowresForm
  /-- `F_TICK`, the hardware tick rate; no rule depends on it (70_reset_and_hazards.md R187). DESIGN CHOICE (entry 23): the
  spec gives the OPEN rates no number type and no unit; here they are rational numbers of events a second. safe. -/
  fTick : Rat
  /-- `F_CLK`, the PWM input clock; no rule depends on it (70_reset_and_hazards.md R187). DESIGN CHOICE (entry 23): a
  rational number of cycles a second. safe. -/
  fClk : Rat
  deriving DecidableEq, Repr

/-- `N_TEMPO`: "9 in NOISE, 1 in DPCM" (00_scope.md R8). -/
def Config.nTempo (c : Config) : Nat :=
  match c.variant with
  | .noise => 9
  | .dpcm => 1

/-- `ceil(L/8)`, the bytes of one DPCM pattern (20_memory.md R51, R53). -/
def Config.patternBytes (c : Config) : Nat := (c.len + 7) / 8

/-- The size of the program ROM in bytes (20_memory.md R51). -/
def Config.romSize (c : Config) : Nat :=
  match c.variant with
  | .noise => c.npat * c.len
  | .dpcm => c.npat * c.patternBytes

/-- `DELAY_TABLE[d]` (10_state.md R38): a 4-bit index into 16 entries is always in range (20_memory.md R54). -/
def Config.delayOf (c : Config) (d : BitVec 4) : Byte :=
  c.delayTable[d.toNat]'(Nat.lt_of_lt_of_eq d.isLt rfl)

/-- `VOL_MASK[v]` (10_state.md R38). -/
def Config.maskOf (c : Config) (v : BitVec 3) : Byte :=
  c.volMask[v.toNat]'(Nat.lt_of_lt_of_eq v.isLt rfl)

/-- `VOL_OFFSET[v]` (10_state.md R38). -/
def Config.offsetOf (c : Config) (v : BitVec 3) : Byte :=
  c.volOffset[v.toNat]'(Nat.lt_of_lt_of_eq v.isLt rfl)

/-- `TEMPO_TABLE[i]` (10_state.md R38); `none` for an index outside the table. -/
def Config.tempoAt (c : Config) (i : Nat) : Option Word16 := c.tempoTable[i]?

/-- `TEMPO_TABLE[0]`, the slowest tempo's threshold (42_tempo_clock.md R113). -/
def Config.slowest (c : Config) : Word16 := c.tempoTable.headD 0

/-- `EXCFG`, the spec's own example instance of the noise variant (95_test_vectors.md section 2), with
`DPCM_DELTA = 2` (00_scope.md R8: "2 in this spec's examples"). DESIGN CHOICE (entry 1): State.reset takes it, since
the parameters are OPEN; `DPCM_BIT_ORDER`, `F_TICK` and `F_CLK` have no example value there. unsafe: a claim about
State.reset alone is a claim about this instance. -/
def Config.example : Config where
  variant := .noise
  npat := 2
  len := 4
  delayTable := #v[0, 1, 2, 3, 4, 5, 6, 7, 8, 10, 12, 14, 16, 20, 24, 32]
  volMask := #v[0xFF, 0x7F, 0x3F, 0x1F, 0x0F, 0x07, 0x03, 0x01]
  volOffset := #v[0x00, 0x40, 0x60, 0x70, 0x78, 0x7C, 0x7E, 0x7F]
  tempoTable := [9, 8, 7, 6, 5, 4, 3, 2, 1]
  seed := 0x0001
  quiescent := 0x80
  dpcmDelta := 2
  dpcmBitOrder := .msbFirst
  lowresForm := .pinned
  fTick := 0
  fClk := 0

/-- FREE VALUE (entry 5). Which of the enabled events the agents issue next, where no event word waits: "The order is
constrained only by each event's enabling condition. Any order the conditions admit is a possible execution"
(20_memory.md R61). No body, so nothing can be proved of a value of it; applied to the counter `choices` of State. safe. -/
opaque Config.freeChoice : Nat → Nat

end Sys2Proof
end

