-- ==== Sys2Proof/Machine/State.lean ====
section
/-! DEFINITION. The architectural state of the core (10_state.md), the reasons a step can stop, and the state at power-on
(10_state.md R41). -/

namespace Sys2Proof.Machine

/-- A register whose power-on value the spec leaves unspecified (10_state.md R41): the value it holds, and whether it has
been written since power-on. Reading it unwritten is the fault UNINIT_READ, recorded in FAULT (60_exceptions.md R150). -/
structure Reg (α : Type) where
  val : α
  written : Bool
  deriving DecidableEq, Repr

/-- A register just written with `v`. -/
def Reg.put {α : Type} (v : α) : Reg α := ⟨v, true⟩

/-- A register never written since power-on. DESIGN CHOICE (entries 3 and 4): it holds `v`, where the spec gives no value.
unsafe: a proof can lean on `v`. -/
def Reg.unwritten {α : Type} (v : α) : Reg α := ⟨v, false⟩

/-- The main-loop phase `MPH` (10_state.md R29). -/
inductive Phase where
  | ready
  | sampled
  deriving DecidableEq, Repr

/-- The names in the fault set (60_exceptions.md R150). They are recorded and the event completes: neither stops a step. -/
inductive FaultName where
  /-- `ADVANCE` applied to the state 0 (40_lfsr.md R94). -/
  | lfsrZero
  /-- A read of a register whose power-on value is unspecified before any write to it (10_state.md R41). -/
  | uninitRead
  deriving DecidableEq, Repr

/-- `FAULT`, a set of the two fault names (10_state.md R37). -/
structure FaultSet where
  lfsrZero : Bool
  uninitRead : Bool
  deriving DecidableEq, Repr

/-- The empty set. -/
def FaultSet.empty : FaultSet := ⟨false, false⟩

/-- The set with one more name. -/
def FaultSet.insert (f : FaultSet) : FaultName → FaultSet
  | .lfsrZero => { f with lfsrZero := true }
  | .uninitRead => { f with uninitRead := true }

/-- Bytes by address: strictly rising addresses, no entry equal to what an unlisted address reads as. -/
abbrev Memory := List Host.Cell

/-- The machine's state: every register of 10_state.md R20, the ROM, the observation (00_scope.md R15), the
configuration, and two fields of the model's own (`stream`, `choices`, entry 5). -/
@[ext]
structure State where
  /-- The configuration, constant for the life of an instance (00_scope.md R8). -/
  cfg : Config
  /-- The program ROM (20_memory.md R51). -/
  rom : Memory
  /-- `RUN` (10_state.md R21): false is Idle, true is Playing. -/
  run : Bool
  /-- `IE` (10_state.md R22). -/
  ie : Bool
  /-- `TOVF` (10_state.md R23). -/
  tovf : Reg Bool
  /-- `ACC` (10_state.md R24). -/
  acc : Reg Word16
  /-- `TIDX` (10_state.md R25). -/
  tidx : BitVec 4
  /-- `SUC` (10_state.md R27). -/
  suc : Reg Byte
  /-- `SLATCH` (10_state.md R28). -/
  slatch : Reg Byte
  /-- `MPH` (10_state.md R29). -/
  mph : Phase
  /-- `CUR` (10_state.md R30). -/
  cur : Reg Byte
  /-- `SEEN` (10_state.md R31). -/
  seen : Reg Byte
  /-- `P` (10_state.md R32). -/
  pat : BitVec 4
  /-- `RNG` (10_state.md R33). -/
  rng : Reg Word16
  /-- `DCTR` (10_state.md R34). -/
  dctr : Reg Byte
  /-- `AMP` (10_state.md R35). -/
  amp : Reg Byte
  /-- `PWM` (10_state.md R36). -/
  pwm : Reg Byte
  /-- `FAULT` (10_state.md R37). -/
  faults : FaultSet
  /-- The writes to `PWM` so far, oldest first (00_scope.md R15). -/
  writes : List Byte
  /-- The model's own (entry 5): the event words the agents issue next, oldest first (30_encoding.md R77, R81). -/
  stream : List Byte
  /-- The model's own (entry 5): how many free choices of an agent have been made. -/
  choices : Nat
  deriving DecidableEq, Repr

/-- Why the machine stops with a fault. Neither is a fault of the spec's FAULT set: 20_memory.md R54 says that no index is
out of range in a reachable state, and these two stop a state in which one is (entry 9). -/
inductive Fault where
  /-- Raised by the step fetch of LOOP_FINISH at a ROM address past the image (20_memory.md R51). safe: it stops where no
  reachable state is. -/
  | romRange
  /-- Raised by ISR where `TIDX` indexes past `TEMPO_TABLE` (10_state.md R25). safe: it stops where no reachable state
  is. -/
  | tempoRange
  deriving DecidableEq, Repr

/-- Why the machine has no step for an event (60_exceptions.md R152). -/
inductive Refusal where
  /-- Raised by an arm of `exec` for an instruction with no meaning yet. safe. -/
  | notModelled (mnemonic : String)
  /-- `CONFIG_NOT_WF` (00_scope.md R9), raised by `step`. safe: "Refusal of a configuration errs toward unprovable". -/
  | configNotWf
  /-- `RESERVED_EVENT` (30_encoding.md R79), raised by `step` on a reserved word. safe: "This errs toward unprovable". -/
  | reservedEvent
  /-- `ISR_NOT_PENDING` (42_tempo_clock.md R111), raised by ISR when `IE = 0` or `TOVF = 0`. safe. -/
  | isrNotPending
  /-- `LOOP_PHASE` (60_exceptions.md R152), raised by LOOP_SAMPLE, LOOP_FINISH and the commands in the wrong phase. safe. -/
  | loopPhase
  /-- The model's own (entry 10), raised by a step element in an instance of the other variant, whose ROM is never read in
  that format (30_encoding.md R70). safe: no run reaches it. -/
  | wrongVariant
  deriving DecidableEq, Repr

/-- Power-on of an instance with configuration `c` and program image `m`: the values of 10_state.md R41, and for every
register that table leaves unspecified the value 0, unwritten (DESIGN CHOICE, entries 3 and 4; unsafe). No event waits
(entry 5). -/
def State.powerOn (c : Config) (m : Memory) : State where
  cfg := c
  rom := m
  run := false
  ie := false
  tovf := .unwritten false
  acc := .unwritten 0
  tidx := 0
  suc := .unwritten 0
  slatch := .unwritten 0
  mph := .ready
  cur := .unwritten 0
  seen := .unwritten 0
  pat := 0
  rng := .unwritten 0
  dctr := .unwritten 0
  amp := .unwritten 0
  pwm := .unwritten 0
  faults := .empty
  writes := []
  stream := []
  choices := 0

/-- The machine right after reset: power-on (the only reset, 70_reset_and_hazards.md R170) of the spec's example instance
(entry 1) with nothing listed in the ROM (entry 2). -/
def State.reset : State := State.powerOn Config.example []

end Sys2Proof.Machine
end

