-- ==== Sys2Proof/Syntax.lean ====
section
/-! DEFINITION. The instructions of the core: the step-program elements and the events (00_scope.md R6), one constructor
per row of opcode_table.json, the three formats they are encoded in, and each row's mask and match. -/

namespace Sys2Proof

/-- The three encodings of 30_encoding.md R70. -/
inductive Format where
  /-- The noise variant's step byte. -/
  | step8
  /-- The DPCM variant's step bit. -/
  | dpcm1
  /-- The event word. -/
  | evt8
  deriving DecidableEq, Repr

/-- "Instruction" means "either a step-program element or an event" (00_scope.md R6). One constructor per row of
opcode_table.json. -/
inductive Instr where
  /-- `STEP LO, v, d`: volume class `v`, delay index `d`, 7-bit LFSR cycle (30_encoding.md R71, R80). -/
  | stepLo (v : BitVec 3) (d : BitVec 4)
  /-- `STEP HI, v, d`: volume class `v`, delay index `d`, 15-bit LFSR cycle (30_encoding.md R71, R80). -/
  | stepHi (v : BitVec 3) (d : BitVec 4)
  /-- `DN`: decrease the amplitude by the fixed delta (30_encoding.md R74). -/
  | dn
  /-- `UP`: increase the amplitude by the fixed delta (30_encoding.md R74). -/
  | up
  /-- `OVF`: a hardware tick (42_tempo_clock.md R110). -/
  | ovf
  /-- `ISR`: one serviced tick of the tempo clock (42_tempo_clock.md R112). -/
  | isr
  /-- `LOOP_SAMPLE`: the read half of an audio tick (43_audio_output.md R121). -/
  | loopSample
  /-- `LOOP_FINISH`: the rest of the audio tick (43_audio_output.md R122). -/
  | loopFinish
  /-- `START` (44_control_commands.md R141). -/
  | start
  /-- `STOP` (44_control_commands.md R143). -/
  | stop
  /-- `TEMPO_ADV` (42_tempo_clock.md R114). -/
  | tempoAdv
  /-- `PATTERN_LATCH n` (44_control_commands.md R145). -/
  | patternLatch (n : BitVec 4)
  deriving DecidableEq, Repr

/-- The format each instruction is encoded in (30_encoding.md R70, R82). -/
def Instr.format : Instr → Format
  | .stepLo _ _ => .step8
  | .stepHi _ _ => .step8
  | .dn => .dpcm1
  | .up => .dpcm1
  | .ovf => .evt8
  | .isr => .evt8
  | .loopSample => .evt8
  | .loopFinish => .evt8
  | .start => .evt8
  | .stop => .evt8
  | .tempoAdv => .evt8
  | .patternLatch _ => .evt8

/-- One row of the opcode table: a word of the format belongs to the row exactly when the word's masked bits are the
match (30_encoding.md R82, opcode_table.json). -/
structure Row where
  format : Format
  mask : Byte
  value : Byte
  deriving DecidableEq, Repr

/-- The opcode-table row of each instruction, as opcode_table.json gives it (30_encoding.md R82). -/
def Instr.row : Instr → Row
  | .stepLo _ _ => ⟨.step8, 0x80, 0x00⟩
  | .stepHi _ _ => ⟨.step8, 0x80, 0x80⟩
  | .dn => ⟨.dpcm1, 0x01, 0x00⟩
  | .up => ⟨.dpcm1, 0x01, 0x01⟩
  | .ovf => ⟨.evt8, 0xFF, 0x10⟩
  | .isr => ⟨.evt8, 0xFF, 0x20⟩
  | .loopSample => ⟨.evt8, 0xFF, 0x30⟩
  | .loopFinish => ⟨.evt8, 0xFF, 0x31⟩
  | .start => ⟨.evt8, 0xFF, 0x40⟩
  | .stop => ⟨.evt8, 0xFF, 0x41⟩
  | .tempoAdv => ⟨.evt8, 0xFF, 0x42⟩
  | .patternLatch _ => ⟨.evt8, 0xF0, 0x50⟩

end Sys2Proof
end

