-- ==== Sys2Proof/WellFormed.lean ====
section
/-! DEFINITION. What is checked before the machine runs: an instruction belongs to the variant (30_encoding.md R70), and
the configuration meets every constraint of 00_scope.md R8 (R9). -/

namespace Sys2Proof

/-- The variant whose program a format can stand in: "`VARIANT` selects whether the program ROM is read as `STEP8` bytes
or as packed `DPCM1` bits" (30_encoding.md R70); an event belongs to both. -/
def Format.inVariant : Format → Variant → Bool
  | .step8, .noise => true
  | .step8, .dpcm => false
  | .dpcm1, .noise => false
  | .dpcm1, .dpcm => true
  | .evt8, .noise => true
  | .evt8, .dpcm => true

/-- An instruction is well formed for an instance of variant `v` when its format is one the instance decodes. Its
operands are well formed by their types: every value of each field is valid (30_encoding.md R73, R75, R78). -/
def Instr.wellFormed (i : Instr) (v : Variant) : Bool := i.format.inVariant v

/-- `NPAT` is 1..16 (00_scope.md R8). -/
abbrev Config.NpatOk (c : Config) : Prop := 1 ≤ c.npat ∧ c.npat ≤ 16

/-- `L` is 1..254 (00_scope.md R8). -/
abbrev Config.LenOk (c : Config) : Prop := 1 ≤ c.len ∧ c.len ≤ 254

/-- `VOL_MASK[v] + VOL_OFFSET[v] <= 255` for every class (00_scope.md R8, 41_step_decoder.md R102). -/
def Config.VolumeOk (c : Config) : Prop :=
  ∀ v : BitVec 3, (c.maskOf v).toNat + (c.offsetOf v).toNat ≤ 255

/-- `TEMPO_TABLE` has `N_TEMPO` entries, each `>= 1`, entry 0 the largest (00_scope.md R8). DEDUCED (entry 21): "the
largest" admits an entry equal to entry 0. safe. -/
def Config.TempoOk (c : Config) : Prop :=
  c.tempoTable.length = c.nTempo ∧ ∀ t ∈ c.tempoTable, 1 ≤ t.toNat ∧ t.toNat ≤ c.slowest.toNat

/-- `SEED[15] = 0`, `SEED[14:0] != 0`, `SEED[6:0] != 0` (00_scope.md R8). -/
abbrev Config.SeedOk (c : Config) : Prop :=
  c.seed.getLsbD 15 = false ∧ c.seed.extractLsb' 0 15 ≠ 0 ∧ c.seed.extractLsb' 0 7 ≠ 0

/-- `DPCM_DELTA` is 1..127 (00_scope.md R8). -/
abbrev Config.DeltaOk (c : Config) : Prop := 1 ≤ c.dpcmDelta.toNat ∧ c.dpcmDelta.toNat ≤ 127

/-- "A configuration is *well formed* when every constraint in the 'value or range' column of 00_scope.md rule R8 holds"
(00_scope.md R9). The constraint on `PROGRAM` is about the ROM and stands with the state. -/
structure Config.Wf (c : Config) : Prop where
  npat : c.NpatOk
  len : c.LenOk
  volume : c.VolumeOk
  tempo : c.TempoOk
  seed : c.SeedOk
  delta : c.DeltaOk

/-- The eight volume classes. -/
def volumeClasses : List (BitVec 3) := [0, 1, 2, 3, 4, 5, 6, 7]

/-- `Config.VolumeOk` as a check that runs. -/
def Config.volumeOk (c : Config) : Bool :=
  volumeClasses.all (fun v => decide ((c.maskOf v).toNat + (c.offsetOf v).toNat ≤ 255))

/-- `Config.TempoOk` as a check that runs. -/
def Config.tempoOk (c : Config) : Bool :=
  decide (c.tempoTable.length = c.nTempo) &&
    c.tempoTable.all (fun t => decide (1 ≤ t.toNat) && decide (t.toNat ≤ c.slowest.toNat))

/-- `Config.Wf` as a check that runs. -/
def Config.wf (c : Config) : Bool :=
  decide c.NpatOk && decide c.LenOk && c.volumeOk && c.tempoOk && decide c.SeedOk && decide c.DeltaOk

end Sys2Proof
end

