-- ==== Sys2Proof/Machine/Ops.lean ====
section
/-! DEFINITION. The named operations over the ROM and the registers, and taking the tempo interrupt with the return from
it. -/

namespace Sys2Proof.Machine

open Sys2Proof

/-! The program ROM (20_memory.md). -/

/-- What an unlisted ROM address reads as. DESIGN CHOICE (entry 2): the contents of `PROGRAM` are OPEN (00_scope.md R8).
unsafe: a claim about a program byte that nothing has placed can lean on it. -/
def Memory.unlisted : Byte := 0x00

/-- `ROM(a)`, the only memory read (00_scope.md R11). -/
def Memory.read : Memory → Nat → Byte
  | [], _ => Memory.unlisted
  | (b, v) :: rest, a => if b = a then v else Memory.read rest a

/-- The memory without an entry for `a`. -/
def Memory.erase : Memory → Nat → Memory
  | [], _ => []
  | (b, v) :: rest, a => if b = a then Memory.erase rest a else (b, v) :: Memory.erase rest a

/-- The memory with an entry for `a` before the first larger address; for a memory that lists no entry for `a`. -/
def Memory.insert : Memory → Nat → Byte → Memory
  | [], a, v => [(a, v)]
  | (b, w) :: rest, a, v => if a < b then (a, v) :: (b, w) :: rest else (b, w) :: Memory.insert rest a v

/-- The placing of one byte of the image from outside the machine (no event writes the ROM, 20_memory.md R64). It keeps
the canonical form: a byte equal to what an unlisted address reads as is not listed. -/
def Memory.place (m : Memory) (a : Nat) (v : Byte) : Memory :=
  if v = Memory.unlisted then m.erase a else (m.erase a).insert a v

/-- The placing of consecutive bytes from address `a`. -/
def Memory.placeAll (m : Memory) (a : Nat) : List Byte → Memory
  | [] => m
  | v :: rest => (m.place a v).placeAll (a + 1) rest

/-- The entries below address `n`. -/
def Memory.below (m : Memory) (n : Nat) : Memory := m.filter (fun c => decide (c.1 < n))

/-- The canonical form: addresses strictly rising, no entry equal to what an unlisted address reads as. -/
abbrev Memory.Wf (m : Memory) : Prop :=
  m.Pairwise (fun c d => c.1 < d.1) ∧ ∀ c ∈ m, c.2 ≠ Memory.unlisted

/-- The canonical form as a check that runs. -/
def Memory.wf (m : Memory) : Bool := decide m.Wf

/-- The address of step `i` of pattern `p` in the noise variant (20_memory.md R52). -/
def stepAddress (c : Config) (p i : Nat) : Nat := p * c.len + i

/-- The address of the byte that holds bit `k` of pattern `p` in the DPCM variant (20_memory.md R53). -/
def bitAddress (c : Config) (p k : Nat) : Nat := p * c.patternBytes + k / 8

/-- A read of the ROM at an address of it; `none` past its size (20_memory.md R51). -/
def State.romByte (s : State) (a : Nat) : Option Byte :=
  if a < s.cfg.romSize then some (s.rom.read a) else none

/-- `STEPBYTE(P, CUR) = ROM(P * L + CUR)`, the step byte in force (41_step_decoder.md R108). -/
def State.stepByte (s : State) : Option Byte :=
  s.romByte (stepAddress s.cfg s.pat.toNat s.cur.val.toNat)

/-- The byte that holds bit `CUR` of pattern `P` (41_step_decoder.md R106). -/
def State.dpcmByte (s : State) : Option Byte :=
  s.romByte (bitAddress s.cfg s.pat.toNat s.cur.val.toNat)

/-! An instance the model has a meaning for (00_scope.md R9). -/

/-- The configuration is well formed and the image is one of its size (00_scope.md R8, R9, 20_memory.md R51). -/
abbrev State.InstanceWf (s : State) : Prop :=
  s.cfg.wf = true ∧ s.rom.Wf ∧ ∀ c ∈ s.rom, c.1 < s.cfg.romSize

/-! Registers. -/

/-- `raise Fault(name)`: the name is added to FAULT and never removed, and the event goes on (60_exceptions.md R150). -/
def State.raise (s : State) (n : FaultName) : State := { s with faults := s.faults.insert n }

/-- The check at a read of a register with no power-on value: `written` is that register's. Unwritten, UNINIT_READ is
recorded (10_state.md R41). -/
def State.noteRead (s : State) (written : Bool) : State := if written then s else s.raise .uninitRead

/-- The check at an application of ADVANCE: on the state 0, LFSR_ZERO is recorded (40_lfsr.md R94). -/
def State.noteZero (s : State) (zero : Bool) : State := if zero then s.raise .lfsrZero else s

/-- `PWM <- v` (00_scope.md R11), the core's only output: the register is written and the write observed (00_scope.md
R15). -/
def State.writePwm (s : State) (v : Byte) : State := { s with pwm := .put v, writes := s.writes ++ [v] }

/-- `T = TEMPO_TABLE[TIDX]`, the threshold in force (10_state.md R26, 42_tempo_clock.md R113). -/
def State.threshold (s : State) : Option Word16 := s.cfg.tempoAt s.tidx.toNat

/-! The tempo interrupt (60_exceptions.md section 2). -/

/-- Taking the interrupt: "Entry changes no core register except what the ISR's own rule writes" (60_exceptions.md R156),
and "taking the interrupt clears the pending flag" (42_tempo_clock.md R112). The processor's own save of its return
address and working registers is below the model and invisible (R157, entry 16). -/
def State.takeInterrupt (s : State) : State := { s with tovf := .put false }

/-- Return: "the main-loop context resumes at the event boundary where it was preempted, with the same `MPH`"
(60_exceptions.md R158). No register changes. -/
def State.returnFromInterrupt (s : State) : State := s

end Sys2Proof.Machine
end

