-- ==== Sys2Proof/Machine/Flags.lean ====
section
/-! DEFINITION. The status bits. The core has no arithmetic flags (40_lfsr.md R90: "none (the core has no flags)"); its
status bits are TOVF with its enable IE (10_state.md R22, R23) and RUN (R21). -/

namespace Sys2Proof.Machine

/-- A timer overflow sets the pending flag, whatever IE is, and merges with one that is pending (10_state.md R23,
60_exceptions.md R154). UNVERIFIED (entry 15): the spec's rule is itself from general knowledge. unsafe. -/
def State.setPending (s : State) : State := { s with tovf := .put true }

/-- The ISR is enabled exactly when `IE = 1` and `TOVF = 1` (42_tempo_clock.md R111). -/
def State.isrEnabled (s : State) : Bool := s.ie && s.tovf.val

/-- Enabling playback: `RUN <- 1`, then `IE <- 1` last (44_control_commands.md R141). -/
def State.enterPlaying (s : State) : State := { s with run := true, ie := true }

/-- Disabling it: `IE <- 0` first, then `RUN <- 0` (44_control_commands.md R143). -/
def State.enterIdle (s : State) : State := { s with ie := false, run := false }

end Sys2Proof.Machine
end

