-- ==== Sys2Proof/Decode.lean ====
section
/-! DEFINITION. The decoders of the three formats (30_encoding.md), total on every word and rejecting by name, the
encoder, and the reading of an opcode-table word the host asks for. -/

namespace Sys2Proof

/-- Why a word is no instruction. -/
inductive Reject where
  /-- "Every `EVT8` word not listed in 30_encoding.md rule R77 is reserved" (30_encoding.md R79): RESERVED_EVENT. -/
  | reservedEvent
  /-- A `DPCM1` element is one bit (30_encoding.md R74): a word above 1 spells none. -/
  | notOneBit
  deriving DecidableEq, Repr

/-- The delay index `D = b[3:0]` of a step byte (30_encoding.md R71, R72). -/
def delayField (b : Byte) : BitVec 4 := b.extractLsb' 0 4

/-- The volume class `V = b[6:4]` of a step byte (30_encoding.md R71, R72). -/
def volumeField (b : Byte) : BitVec 3 := b.extractLsb' 4 3

/-- The resolution flag `R = b[7]` of a step byte (30_encoding.md R71, R72); under `RES_POLARITY` 1 selects the 15-bit
cycle (41_step_decoder.md R103). -/
def resolutionField (b : Byte) : Bool := b.getLsbD 7

/-- The step-byte decoder: all 256 values are valid (30_encoding.md R73). -/
def decodeStep8 (b : Byte) : Instr :=
  if resolutionField b then .stepHi (volumeField b) (delayField b) else .stepLo (volumeField b) (delayField b)

/-- The DPCM step: 1 increases, 0 decreases (30_encoding.md R74). -/
def decodeDpcm1 (u : Bool) : Instr := if u then .up else .dn

/-- The event decoder: the words of 30_encoding.md R77, and the refusal by name of every other (R79). -/
def decodeEvt8 (w : Byte) : Except Reject Instr :=
  if w = 0x10 then .ok .ovf
  else if w = 0x20 then .ok .isr
  else if w = 0x30 then .ok .loopSample
  else if w = 0x31 then .ok .loopFinish
  else if w = 0x40 then .ok .start
  else if w = 0x41 then .ok .stop
  else if w = 0x42 then .ok .tempoAdv
  else if w.extractLsb' 4 4 = 0x5 then .ok (.patternLatch (w.extractLsb' 0 4))
  else .error .reservedEvent

/-- One element of a given format (30_encoding.md R70: the format is known from where the element stands, so a decoder
always knows it). A `DPCM1` bit is given as a byte that holds it in bit 0. -/
def decode (f : Format) (w : Byte) : Except Reject Instr :=
  match f with
  | .step8 => .ok (decodeStep8 w)
  | .dpcm1 => if w = 0 then .ok (decodeDpcm1 false) else if w = 1 then .ok (decodeDpcm1 true) else .error .notOneBit
  | .evt8 => decodeEvt8 w

/-- A list of elements of one format, refused at the first word that spells none. -/
def decodeAll (f : Format) : List Byte → Except Reject (List Instr)
  | [] => .ok []
  | w :: rest =>
    match decode f w with
    | .error e => .error e
    | .ok i =>
      match decodeAll f rest with
      | .error e => .error e
      | .ok is => .ok (i :: is)

/-- The word of an instruction, from the encoding tables of 30_encoding.md R71, R74, R77. A `DPCM1` bit is in bit 0. -/
def encodeWord : Instr → Byte
  | .stepLo v d => (0#1 ++ v) ++ d
  | .stepHi v d => (1#1 ++ v) ++ d
  | .dn => 0
  | .up => 1
  | .ovf => 0x10
  | .isr => 0x20
  | .loopSample => 0x30
  | .loopFinish => 0x31
  | .start => 0x40
  | .stop => 0x41
  | .tempoAdv => 0x42
  | .patternLatch n => 0x5#4 ++ n

/-- An instruction's format and word. -/
def encode (i : Instr) : Format × Byte := (i.format, encodeWord i)

/-- The format a word is read in when nothing but the word is given. The three formats share their words (0x10 is OVF and
the step byte STEP LO, 1, 0), and the machine itself never needs this: it knows the format from where the word stands
(30_encoding.md R70). DESIGN CHOICE (entry 12): the format with the fewest valid words that holds the word. safe. -/
def formatOfTableWord (w : Byte) : Format :=
  if w = 0 ∨ w = 1 then .dpcm1
  else
    match decodeEvt8 w with
    | .ok _ => .evt8
    | .error _ => .step8

/-- The instruction the decoder reads from a word of opcode_table.json of `nbits` bits. -/
def decodeTableWord (nbits w : Nat) : Option Instr :=
  if nbits ≤ 8 ∧ w < 256 then
    match decode (formatOfTableWord (BitVec.ofNat 8 w)) (BitVec.ofNat 8 w) with
    | .ok i => some i
    | .error _ => none
  else none

end Sys2Proof
end

