-- ==== Sys2Proof/Machine/Operands.lean ====
section
/-! DEFINITION. The operand forms: what a step byte and a DPCM bit decode to (41_step_decoder.md). -/

namespace Sys2Proof.Machine

open Sys2Proof

/-- The record a step byte decodes to (41_step_decoder.md R100). -/
structure StepParams where
  dly : Byte
  mask : Byte
  off : Byte
  hi : Bool
  deriving DecidableEq, Repr

/-- The record selected by a resolution flag, a volume class and a delay index (41_step_decoder.md R101 to R103). -/
def stepParams (c : Config) (hi : Bool) (v : BitVec 3) (d : BitVec 4) : StepParams :=
  ⟨c.delayOf d, c.maskOf v, c.offsetOf v, hi⟩

/-- `DECODE(b)` (41_step_decoder.md R100), total (R104). -/
def decodeStep (c : Config) (b : Byte) : StepParams :=
  stepParams c (resolutionField b) (volumeField b) (delayField b)

/-- `AMPL(r, mask, off) = (r[7:0] AND mask) + off` (41_step_decoder.md R105). -/
def ampl (r : Word16) (mask off : Byte) : Byte := (r.extractLsb' 0 8 &&& mask) + off

/-- The position of bit `k` inside its byte (41_step_decoder.md R106). -/
def bitPosition (o : BitOrder) (k : Nat) : Nat :=
  match o with
  | .msbFirst => 7 - k % 8
  | .lsbFirst => k % 8

/-- `DPCM_BIT(P, CUR)`, the DPCM bit in force (41_step_decoder.md R106). -/
def State.dpcmBit (s : State) : Option Bool :=
  s.dpcmByte.map (fun b => b.getLsbD (bitPosition s.cfg.dpcmBitOrder s.cur.val.toNat))

/-- `DPCM_DELTA_OF(u)`: the delta, or its 8-bit two's complement (41_step_decoder.md R107). -/
def dpcmDeltaOf (c : Config) (u : Bool) : Byte := if u then c.dpcmDelta else 0 - c.dpcmDelta

end Sys2Proof.Machine
end

