-- ==== Sys2Proof/Machine/Agents.lean ====
section
/-! DEFINITION. Which events the agents can issue in a state (00_scope.md R7, 20_memory.md R61), and the free choice among
them. -/

namespace Sys2Proof.Machine

open Sys2Proof

/-- The control block's sixteen pattern latches (30_encoding.md R78). -/
def patternLatches : List Instr :=
  (List.range 16).map (fun n => .patternLatch (BitVec.ofNat 4 n))

/-- The events the main-loop context can issue: a LOOP_SAMPLE or a command between iterations, a LOOP_FINISH inside one
(43_audio_output.md R120 to R122, 44_control_commands.md R140). -/
def mainEvents : Phase → List Instr
  | .ready => [.loopSample, .start, .stop, .tempoAdv] ++ patternLatches
  | .sampled => [.loopFinish]

/-- The enabled events: OVF in every state (42_tempo_clock.md R110), ISR where the interrupt is pending and enabled (R111),
and the main-loop context's. -/
def State.enabled (s : State) : List Instr :=
  [.ovf] ++ (if s.isrEnabled then [.isr] else []) ++ mainEvents s.mph

/-- The event the agents issue where no event word waits: any enabled one, chosen by the free value (entry 5). -/
def State.freeEvent (s : State) : Instr :=
  (s.enabled[Config.freeChoice s.choices % s.enabled.length]?).getD .ovf

end Sys2Proof.Machine
end

