-- ==== Sys2Proof/Machine/Lfsr.lean ====
section
/-! DEFINITION. The LFSR: `ADVANCE`, a pure function of the state and the width selector (40_lfsr.md). -/

namespace Sys2Proof.Machine

open Sys2Proof

/-- `fb := c[1] XOR c[0]`, from the pre-shift value (40_lfsr.md R90). -/
def feedback (c : Word16) : Bool := c.getLsbD 1 ^^ c.getLsbD 0

/-- `zext_16(fb) << n`. -/
def inject (fb : Bool) (n : Nat) : Word16 := (BitVec.ofBool fb).setWidth 16 <<< n

/-- The 15-bit step (40_lfsr.md R91). -/
def advanceHigh (c : Word16) : Word16 := (c >>> 1) ||| inject (feedback c) 14

/-- The 7-bit step with `LOWRES_FORM = PINNED`, the normative reading (40_lfsr.md R92). -/
def advancePinned (c : Word16) : Word16 :=
  (c &&& 0xFF80) ||| ((c &&& 0x007F) >>> 1) ||| inject (feedback c) 6

/-- The 7-bit step with `LOWRES_FORM = SHIFTED`, the admitted alternative (40_lfsr.md R93). -/
def advanceShifted (c : Word16) : Word16 := (c >>> 1) ||| inject (feedback c) 6

/-- `ADVANCE(c, hi)` (40_lfsr.md R90). Of 0 it is 0; who applies it raises LFSR_ZERO there (R94). -/
def advance (f : LowresForm) (c : Word16) (hi : Bool) : Word16 :=
  if hi then advanceHigh c
  else
    match f with
    | .pinned => advancePinned c
    | .shifted => advanceShifted c

/-- `n` applications of `ADVANCE` with one width. -/
def advanceN (f : LowresForm) (hi : Bool) : Nat → Word16 → Word16
  | 0, c => c
  | n + 1, c => advanceN f hi n (advance f c hi)

end Sys2Proof.Machine
end

