-- ==== Sys2Proof/Machine/AudioOutput.lean ====
section
/-! DEFINITION. The audio output stage (43_audio_output.md): the step elements and the two halves of an audio tick. -/

namespace Sys2Proof.Machine

open Sys2Proof

/-- The step elements' guard: an element of the other variant's format has no meaning in the instance (30_encoding.md
R70, entry 10). -/
def State.inVariant (s : State) (v : Variant) (t : State) : Host.Outcome State Fault Refusal :=
  if s.cfg.variant = v then .next t else .refused .wrongVariant

/-- A noise sample is emitted: the LFSR advances first, and the PWM value is computed from the advanced state
(43_audio_output.md R127). On the state 0 LFSR_ZERO is recorded, RNG stays 0 and the rest completes (40_lfsr.md R94). -/
def State.emitNoise (s : State) (p : StepParams) : State :=
  let s := (s.noteRead s.rng.written).noteZero (s.rng.val == 0#16)
  let r := advance s.cfg.lowresForm s.rng.val p.hi
  { s with rng := .put r }.writePwm (ampl r p.mask p.off)

/-- `NOISE_STAGE` after the decode (43_audio_output.md R126): the delay gate fires, or DCTR counts (R128). -/
def State.noiseStage (s : State) (p : StepParams) : State :=
  let s := s.noteRead s.dctr.written
  if p.dly ≤ s.dctr.val then { s with dctr := .put 0 }.emitNoise p
  else { s with dctr := .put (s.dctr.val + 1) }

/-- `DPCM_STAGE` after the bit fetch (43_audio_output.md R129): 8-bit wrap-around, no saturation. -/
def State.dpcmStage (s : State) (u : Bool) : State :=
  let s := s.noteRead s.amp.written
  let a := s.amp.val + dpcmDeltaOf s.cfg u
  { s with amp := .put a }.writePwm a

/-- STEP_LO: the delay gate with the element's delay and volume window and the 7-bit cycle (41_step_decoder.md R100,
43_audio_output.md R126). -/
def execStepLo (v : BitVec 3) (d : BitVec 4) (s : State) : Host.Outcome State Fault Refusal :=
  s.inVariant .noise (s.noiseStage (stepParams s.cfg false v d))

/-- STEP_HI: the same with the 15-bit cycle (41_step_decoder.md R100, R103, 43_audio_output.md R126). -/
def execStepHi (v : BitVec 3) (d : BitVec 4) (s : State) : Host.Outcome State Fault Refusal :=
  s.inVariant .noise (s.noiseStage (stepParams s.cfg true v d))

/-- DN: the amplitude goes down by the delta (43_audio_output.md R129). -/
def execDn (s : State) : Host.Outcome State Fault Refusal :=
  s.inVariant .dpcm (s.dpcmStage false)

/-- UP: the amplitude goes up by the delta (43_audio_output.md R129). -/
def execUp (s : State) : Host.Outcome State Fault Refusal :=
  s.inVariant .dpcm (s.dpcmStage true)

/-- LOOP_SAMPLE (43_audio_output.md R121): the iteration's one read of SUC, in Playing only. -/
def execLoopSample (s : State) : Host.Outcome State Fault Refusal :=
  match s.mph with
  | .sampled => .refused .loopPhase
  | .ready =>
    if s.run then
      .next { s.noteRead s.suc.written with slatch := .put s.suc.val, mph := .sampled }
    else .next { s with mph := .sampled }

/-- `new := (s != SEEN)`, with `s` the sampled value before rollover (43_audio_output.md R122, R125). -/
def State.isNewStep (s : State) : Bool := s.slatch.val != s.seen.val

/-- The rollover, SEEN and CUR part of LOOP_FINISH, for a sampled value that is not 0 (43_audio_output.md R122, R124,
R125). -/
def State.consumeStep (s : State) : State :=
  let s := s.noteRead s.seen.written
  if s.cfg.len < s.slatch.val.toNat then { s with suc := .put 1, seen := .put 1, cur := .put 0 }
  else { s with seen := .put s.slatch.val, cur := .put (s.slatch.val - 1) }

/-- The step byte fetched is run as the element it spells (41_step_decoder.md R108). -/
def runStepByte (b : Byte) (s : State) : Host.Outcome State Fault Refusal :=
  if resolutionField b then execStepHi (volumeField b) (delayField b) s
  else execStepLo (volumeField b) (delayField b) s

/-- The step bit fetched is run as the element it spells (30_encoding.md R74). -/
def runStepBit (u : Bool) (s : State) : Host.Outcome State Fault Refusal :=
  if u then execUp s else execDn s

/-- The element in force at `(P, CUR)` is fetched afresh and run (41_step_decoder.md R108); the DPCM variant does so only
where the step update is new (43_audio_output.md R122, R130). -/
def State.runElement (s : State) (new : Bool) : Host.Outcome State Fault Refusal :=
  match s.cfg.variant with
  | .noise =>
    match s.stepByte with
    | none => .fault .romRange
    | some b => runStepByte b s
  | .dpcm =>
    if new then
      match s.dpcmBit with
      | none => .fault .romRange
      | some u => runStepBit u s
    else .next s

/-- LOOP_FINISH in Playing, after `MPH <- READY`: with no step yet nothing more happens (43_audio_output.md R123), else
the step in force is consumed and run (R122). -/
def State.finishPlaying (s : State) : Host.Outcome State Fault Refusal :=
  let s := s.noteRead s.slatch.written
  if s.slatch.val = 0#8 then .next s else s.consumeStep.runElement s.isNewStep

/-- LOOP_FINISH (43_audio_output.md R122). -/
def execLoopFinish (s : State) : Host.Outcome State Fault Refusal :=
  match s.mph with
  | .ready => .refused .loopPhase
  | .sampled =>
    if s.run then { s with mph := .ready }.finishPlaying
    else .next ({ s with mph := .ready }.writePwm s.cfg.quiescent)

end Sys2Proof.Machine
end

