-- ==== Sys2Proof/Machine/ControlCommands.lean ====
section
/-! DEFINITION. The control commands START, STOP and PATTERN_LATCH (44_control_commands.md). Each falls between two
main-loop iterations (R140). -/

namespace Sys2Proof.Machine

open Sys2Proof

/-- What START writes before it enables playback (44_control_commands.md R141). -/
def State.resetSequencer (s : State) : State :=
  { s with
    suc := .put 0
    acc := .put 0
    cur := .put 0
    seen := .put 0
    rng := .put s.cfg.seed
    tovf := .put false
    dctr := .put 0
    amp := .put s.cfg.quiescent }

/-- What STOP resets after it disables the interrupt: "all derived amplitude/delay state", then PWM to the quiescent level
(44_control_commands.md R143). -/
def State.silence (s : State) : State :=
  { s with dctr := .put 0, amp := .put s.cfg.quiescent }.writePwm s.cfg.quiescent

/-- START (44_control_commands.md R141): the Idle to Playing transition; in Playing it changes nothing (R142). -/
def execStart (s : State) : Host.Outcome State Fault Refusal :=
  match s.mph with
  | .sampled => .refused .loopPhase
  | .ready => .next (if s.run then s else s.resetSequencer.enterPlaying)

/-- STOP (44_control_commands.md R143): the Playing to Idle transition; in Idle it changes nothing (R144). -/
def execStop (s : State) : Host.Outcome State Fault Refusal :=
  match s.mph with
  | .sampled => .refused .loopPhase
  | .ready => .next (if s.run then s.enterIdle.silence else s)

/-- PATTERN_LATCH n (44_control_commands.md R145): `P <- min(n, NPAT - 1)`, in Idle and in Playing. -/
def execPatternLatch (n : BitVec 4) (s : State) : Host.Outcome State Fault Refusal :=
  match s.mph with
  | .sampled => .refused .loopPhase
  | .ready => .next { s with pat := BitVec.ofNat 4 (min n.toNat (s.cfg.npat - 1)) }

end Sys2Proof.Machine
end

