-- ==== Sys2Proof/Machine/TempoClock.lean ====
section
/-! DEFINITION. The tempo clock (42_tempo_clock.md): the hardware tick, its handler, and the tempo-adjust command. -/

namespace Sys2Proof.Machine

open Sys2Proof

/-- OVF (42_tempo_clock.md R110): enabled in every state. -/
def execOvf (s : State) : Host.Outcome State Fault Refusal := .next s.setPending

/-- The handler's body at threshold `t` (42_tempo_clock.md R112): ACC is incremented first, then compared with `>=`; on
reaching the threshold ACC is cleared and SUC steps modulo 256. -/
def State.tempoTick (s : State) (t : Word16) : State :=
  let s := s.noteRead s.acc.written
  if t ≤ s.acc.val + 1 then
    { s.noteRead s.suc.written with acc := .put 0, suc := .put (s.suc.val + 1) }
  else { s with acc := .put (s.acc.val + 1) }

/-- ISR (42_tempo_clock.md R111, R112): refused unless `IE = 1` and `TOVF = 1`; else the interrupt is taken, the handler
runs with the threshold in force (R113), and the main loop resumes (60_exceptions.md R158). TOVF is read only where
`IE = 1`. -/
def execIsr (s : State) : Host.Outcome State Fault Refusal :=
  if s.isrEnabled then
    match s.threshold with
    | none => .fault .tempoRange
    | some t => .next (((s.noteRead s.tovf.written).takeInterrupt.tempoTick t).returnFromInterrupt)
  else .refused .isrNotPending

/-- TEMPO_ADV (42_tempo_clock.md R114): `TIDX <- (TIDX + 1) mod N_TEMPO`, between iterations (44_control_commands.md
R140). -/
def execTempoAdv (s : State) : Host.Outcome State Fault Refusal :=
  match s.mph with
  | .sampled => .refused .loopPhase
  | .ready => .next { s with tidx := BitVec.ofNat 4 ((s.tidx.toNat + 1) % s.cfg.nTempo) }

end Sys2Proof.Machine
end

