-- ==== Sys2Proof/Machine/Dispatch.lean ====
section
/-! DEFINITION. One arm per instruction: each a direct call of its meaning. -/

namespace Sys2Proof.Machine

def exec (i : Instr) (s : State) : Host.Outcome State Fault Refusal :=
  match i with
  | .stepLo v d => Sys2Proof.Machine.execStepLo v d s
  | .stepHi v d => Sys2Proof.Machine.execStepHi v d s
  | .dn => Sys2Proof.Machine.execDn s
  | .up => Sys2Proof.Machine.execUp s
  | .ovf => Sys2Proof.Machine.execOvf s
  | .isr => Sys2Proof.Machine.execIsr s
  | .loopSample => Sys2Proof.Machine.execLoopSample s
  | .loopFinish => Sys2Proof.Machine.execLoopFinish s
  | .start => Sys2Proof.Machine.execStart s
  | .stop => Sys2Proof.Machine.execStop s
  | .tempoAdv => Sys2Proof.Machine.execTempoAdv s
  | .patternLatch n => Sys2Proof.Machine.execPatternLatch n s

end Sys2Proof.Machine
end

