-- ==== Sys2Proof/Machine/Loader.lean ====
section
/-! DEFINITION. Placing a program from outside the machine: a ROM image, the agents' next event, and one instruction such
that the next step runs it (entry 13). No event of the machine does any of this. -/

namespace Sys2Proof.Machine

open Sys2Proof

/-- The image of `PROGRAM`, from ROM address 0 (20_memory.md R51). -/
def State.loadImage (s : State) (bytes : List Byte) : State := { s with rom := s.rom.placeAll 0 bytes }

/-- One more event word for the agents to issue, before those that wait. -/
def State.issue (s : State) (w : Byte) : State := { s with stream := w :: s.stream }

/-- The state where it is an instance of variant `v`; else that variant's instance with the same parameters: a tempo table
of its size, TIDX back to 0, and the image cut to its ROM (00_scope.md R8, 20_memory.md R51). -/
def State.asVariant (s : State) (v : Variant) : State :=
  if s.cfg.variant = v then s
  else
    let t := s.cfg.tempoTable.headD 1
    let c : Config := { s.cfg with
      variant := v
      tempoTable := match v with
        | .noise => List.replicate 9 t
        | .dpcm => [t] }
    { s with cfg := c, rom := s.rom.below c.romSize, tidx := 0 }

/-- The state that START, one step update and LOOP_SAMPLE lead to: the next LOOP_FINISH runs step 0 of the active pattern
(44_control_commands.md R141, 43_audio_output.md R121, R125). -/
def State.atFirstStep (s : State) : State :=
  { s.resetSequencer.enterPlaying with suc := .put 1, slatch := .put 1, mph := .sampled }

/-- The step byte `b` in the ROM as the element the next step runs. -/
def State.placeStepByte (s : State) (b : Byte) : State :=
  let s := (s.asVariant .noise).atFirstStep
  { s with rom := s.rom.place (stepAddress s.cfg s.pat.toNat 0) b }.issue (encodeWord .loopFinish)

/-- The step bit `u` in the ROM as the element the next step runs; the other bits of its byte are kept. -/
def State.placeStepBit (s : State) (u : Bool) : State :=
  let s := (s.asVariant .dpcm).atFirstStep
  let a := bitAddress s.cfg s.pat.toNat 0
  let one : Byte := 1 <<< bitPosition s.cfg.dpcmBitOrder 0
  let b := if u then s.rom.read a ||| one else s.rom.read a &&& ~~~one
  { s with rom := s.rom.place a b }.issue (encodeWord .loopFinish)

/-- The state in which an event is enabled, changed only where it is not: Playing with a pending overflow for ISR
(42_tempo_clock.md R111), inside an iteration for LOOP_FINISH, between two for the rest of the main-loop context's. -/
def State.enabledFor (s : State) : Instr → State
  | .isr => (if s.ie then s else s.resetSequencer.enterPlaying).setPending
  | .loopFinish => if s.run then { s with slatch := .put s.suc.val, mph := .sampled } else { s with mph := .sampled }
  | .loopSample | .start | .stop | .tempoAdv | .patternLatch _ => { s with mph := .ready }
  | .ovf | .stepLo _ _ | .stepHi _ _ | .dn | .up => s

/-- The instruction `i` placed so that the very next step runs it. -/
def State.placeInstr (s : State) (i : Instr) : State :=
  match i.format with
  | .step8 => s.placeStepByte (encodeWord i)
  | .dpcm1 => s.placeStepBit ((encodeWord i).getLsbD 0)
  | .evt8 => (s.enabledFor i).issue (encodeWord i)

end Sys2Proof.Machine
end

