-- ==== Sys2Proof/Machine/Step.lean ====
section
/-! DEFINITION. One step: one atomic event of one agent (00_scope.md R12), and the host's placement of an instruction. -/

namespace Sys2Proof.Machine

open Sys2Proof

/-- One event (00_scope.md R12). An instance that is not well formed is refused (R9). The next word of the stream is
decoded and run; a reserved word is refused (30_encoding.md R79). Where no word waits, the agents issue an enabled event of
their free choice (20_memory.md R61, entry 5). -/
def step (s : State) : Host.Outcome State Fault Refusal :=
  if s.InstanceWf then
    match s.stream with
    | [] => exec s.freeEvent { s with choices := s.choices + 1 }
    | w :: rest =>
      match decodeEvt8 w with
      | .error _ => .refused .reservedEvent
      | .ok i => exec i { s with stream := rest }
  else .refused .configNotWf

/-- The state with the instruction of an opcode-table word placed so that the very next step runs it (entry 13). -/
def State.withFetchWord (s : State) (nbits w : Nat) : State :=
  match decodeTableWord nbits w with
  | none => s
  | some i => s.placeInstr i

end Sys2Proof.Machine
end

