-- ==== Sys2Proof/Machine/Assembler.lean ====
section
/-! DEFINITION. The abstract form of the step-program syntax (30_encoding.md R80) and of the event-stream syntax with its
pseudo-events (R81), and what each assembles to. -/

namespace Sys2Proof.Machine

open Sys2Proof

/-- One line of a step program (30_encoding.md R80). -/
inductive ProgLine where
  /-- `STEP <res>, <v>, <d>`; `hi` is true for `HI`. -/
  | step (hi : Bool) (v : BitVec 3) (d : BitVec 4)
  /-- `.byte`. -/
  | byte (b : Byte)
  /-- `UP`. -/
  | up
  /-- `DN`. -/
  | dn
  /-- `.bits`. -/
  | bits (us : List Bool)
  /-- `PATTERN`. -/
  | pattern
  deriving DecidableEq, Repr

/-- The step bytes a line places (30_encoding.md R80). DESIGN CHOICE (entry 25): a line of the DPCM variant places none; R80
does not say what it assembles to in a noise program. safe. -/
def ProgLine.bytes : ProgLine → List Byte
  | .step hi v d => [encodeWord (if hi then .stepHi v d else .stepLo v d)]
  | .byte b => [b]
  | .up => []
  | .dn => []
  | .bits _ => []
  | .pattern => []

/-- The step bits a line places (30_encoding.md R80). DESIGN CHOICE (entry 25): a line of the noise variant places none; R80
does not say what it assembles to in a DPCM program. safe. -/
def ProgLine.units : ProgLine → List Bool
  | .step _ _ _ => []
  | .byte _ => []
  | .up => [true]
  | .dn => [false]
  | .bits us => us
  | .pattern => []

/-- The ROM image of a noise program: pattern after pattern, one byte a step (20_memory.md R52). DESIGN CHOICE (entry 26):
patterns are joined as written; one of other than `L` steps is neither refused nor filled, so the patterns after it do not
stand at `p * L`. safe. -/
def noiseImage (p : List ProgLine) : List Byte := p.flatMap ProgLine.bytes

/-- Bits packed eight to a byte in bit order `o`, with `k` bits already in `b` (30_encoding.md R74). DESIGN CHOICE (entry 26):
padding bits are 0; they are never read (R75). safe. -/
def packBits (o : BitOrder) (k : Nat) (b : Byte) : List Bool → List Byte
  | [] => if k = 0 then [] else [b]
  | u :: us =>
    let b := b ||| ((BitVec.ofBool u).setWidth 8 <<< bitPosition o k)
    if k = 7 then b :: packBits o 0 0 us else packBits o (k + 1) b us

/-- The ROM image of a DPCM program: each pattern packed into bytes of its own (20_memory.md R53); `open_` holds the bits
of the pattern being read. DESIGN CHOICE (entry 26): patterns are joined as written; one that packs into other than
`ceil(L/8)` bytes is neither refused nor filled, so the patterns after it do not stand at `p * ceil(L/8)`. safe. -/
def dpcmImage (o : BitOrder) (open_ : List Bool) : List ProgLine → List Byte
  | [] => packBits o 0 0 open_
  | .pattern :: p => packBits o 0 0 open_ ++ dpcmImage o [] p
  | l :: p => dpcmImage o (open_ ++ l.units) p

/-- One line of an event stream (30_encoding.md R81). -/
inductive EventLine where
  /-- A mnemonic of 30_encoding.md R77. -/
  | event (i : Instr)
  /-- `LOOP*n`. -/
  | loop (n : Nat)
  /-- `TICK*n`. -/
  | tick (n : Nat)
  /-- `TOGGLE`. -/
  | toggle
  deriving DecidableEq, Repr

/-- What a line expands to where RUN is `run` (30_encoding.md R81). -/
def EventLine.expand (run : Bool) : EventLine → List Instr
  | .event i => [i]
  | .loop n => (List.replicate n [Instr.loopSample, Instr.loopFinish]).flatten
  | .tick n => (List.replicate n [Instr.ovf, Instr.isr]).flatten
  | .toggle => [if run then .stop else .start]

/-- RUN after an event: only START and STOP write it (10_state.md R21). -/
def runAfter (run : Bool) : Instr → Bool
  | .start => true
  | .stop => false
  | .stepLo _ _ | .stepHi _ _ | .dn | .up | .ovf | .isr | .loopSample | .loopFinish | .tempoAdv | .patternLatch _ => run

/-- The events of a stream whose first line meets RUN = `run`. -/
def expandStream (run : Bool) : List EventLine → List Instr
  | [] => []
  | l :: ls => l.expand run ++ expandStream ((l.expand run).foldl runAfter run) ls

end Sys2Proof.Machine
end

