-- ==== Sys2Proof/Safety.lean ====
section
/-! DEFINITION. The terms claims use: the invariants of reachable states (10_state.md R40), who may write what (R39), runs
of events, the scheduling premises (60_exceptions.md R160), and what an interrupt can see. -/

namespace Sys2Proof.Safety

open Sys2Proof Sys2Proof.Machine

/-- No fault of the spec's FAULT set has been recorded (60_exceptions.md R150). -/
abbrev NoFault (s : State) : Prop := s.faults = FaultSet.empty

/-- The largest entry of `DELAY_TABLE` (10_state.md R40(e)). -/
def maxDelay (c : Config) : Nat := c.delayTable.toList.foldl (fun m b => max m b.toNat) 0

/-- The invariants of every reachable state of a well-formed instance: (a) to (f) of 10_state.md R40, where "from the first
START on" reads "once the register has been written". -/
structure Inv (s : State) : Prop where
  /-- The instance is well formed (00_scope.md R9). -/
  wf : s.InstanceWf
  /-- R40(a), 40_lfsr.md R95. -/
  rngOk : s.rng.written = true → s.rng.val ≠ 0#16 ∧ s.rng.val.getLsbD 15 = false
  /-- R40(b). -/
  ieRun : s.ie = s.run
  /-- R40(c). -/
  tidxLt : s.tidx.toNat < s.cfg.nTempo
  /-- R40(c). -/
  patLt : s.pat.toNat < s.cfg.npat
  /-- R40(d). -/
  curLt : s.cur.written = true → s.cur.val.toNat < s.cfg.len
  /-- R40(d). -/
  seenLe : s.seen.written = true → s.seen.val.toNat ≤ s.cfg.len
  /-- R40(e). -/
  dctrLe : s.cfg.variant = .noise → s.dctr.written = true → s.dctr.val.toNat ≤ maxDelay s.cfg
  /-- R40(f). -/
  noFault : NoFault s
  /-- `ACC` stays below the largest threshold (42_tempo_clock.md R117). -/
  accLt : s.acc.written = true → s.acc.val.toNat < s.cfg.slowest.toNat
  /-- In Playing every register START writes has been written (10_state.md R41: "No rule reads any of these registers
  before it has been written"). -/
  started : s.run = true → s.tovf.written = true ∧ s.acc.written = true ∧ s.suc.written = true ∧ s.cur.written = true ∧
    s.seen.written = true ∧ s.rng.written = true ∧ s.dctr.written = true ∧ s.amp.written = true
  /-- Inside an iteration in Playing, LOOP_SAMPLE has written SLATCH (43_audio_output.md R121). -/
  sampled : s.run = true → s.mph = .sampled → s.slatch.written = true

/-- The registers, the ROM, the configuration and the observation, by name. -/
inductive Part where
  | cfg | rom | run | ie | tovf | acc | tidx | suc | slatch | mph | cur | seen | pat | rng | dctr | amp | pwm | faults
  | writes | stream | choices
  deriving DecidableEq, Repr

/-- Two states hold the same in a part. -/
def Same (p : Part) (s t : State) : Prop :=
  match p with
  | .cfg => t.cfg = s.cfg
  | .rom => t.rom = s.rom
  | .run => t.run = s.run
  | .ie => t.ie = s.ie
  | .tovf => t.tovf = s.tovf
  | .acc => t.acc = s.acc
  | .tidx => t.tidx = s.tidx
  | .suc => t.suc = s.suc
  | .slatch => t.slatch = s.slatch
  | .mph => t.mph = s.mph
  | .cur => t.cur = s.cur
  | .seen => t.seen = s.seen
  | .pat => t.pat = s.pat
  | .rng => t.rng = s.rng
  | .dctr => t.dctr = s.dctr
  | .amp => t.amp = s.amp
  | .pwm => t.pwm = s.pwm
  | .faults => t.faults = s.faults
  | .writes => t.writes = s.writes
  | .stream => t.stream = s.stream
  | .choices => t.choices = s.choices

/-- The parts each instruction may write: the table of 10_state.md R39, with PWM's writes observed (00_scope.md R15) and
FAULT for the instructions that read a register with no power-on value or apply ADVANCE (60_exceptions.md R150). -/
def mayWrite : Instr → List Part
  | .stepLo _ _ => [.dctr, .rng, .pwm, .writes, .faults]
  | .stepHi _ _ => [.dctr, .rng, .pwm, .writes, .faults]
  | .dn => [.amp, .pwm, .writes, .faults]
  | .up => [.amp, .pwm, .writes, .faults]
  | .ovf => [.tovf]
  | .isr => [.tovf, .acc, .suc, .faults]
  | .loopSample => [.slatch, .mph, .faults]
  | .loopFinish => [.suc, .mph, .cur, .seen, .rng, .dctr, .amp, .pwm, .writes, .faults]
  | .start => [.tovf, .acc, .suc, .cur, .seen, .rng, .dctr, .amp, .run, .ie]
  | .stop => [.dctr, .amp, .pwm, .writes, .run, .ie]
  | .tempoAdv => [.tidx]
  | .patternLatch _ => [.pat]

/-- The events run in order, stopping at the first that is refused or faults (20_memory.md R61: one total order). -/
def execAll : List Instr → State → Host.Outcome State Fault Refusal
  | [], s => .next s
  | i :: is, s =>
    match exec i s with
    | .next t => execAll is t
    | .fault f => .fault f
    | .refused r => .refused r

/-- `n` serviced ticks (30_encoding.md R81, `TICK*n`). -/
def ticks (n : Nat) : List Instr := (EventLine.tick n).expand true

/-- `n` uninterrupted audio ticks (30_encoding.md R81, `LOOP*n`). -/
def loops (n : Nat) : List Instr := (EventLine.loop n).expand true

/-- The premise `ISR_SERVICED` (60_exceptions.md R160) on a finite prefix of a run: "while `IE = 1`, after each OVF an ISR
event occurs before the next OVF". The last OVF of the prefix may still wait: its ISR comes later in the run
(`IsrServicedForever`). `ie` is IE where the run begins, `waiting` whether an OVF since then waits for its ISR. -/
def IsrServiced (ie waiting : Bool) : List Instr → Bool
  | [] => true
  | .ovf :: is => !(ie && waiting) && IsrServiced ie ie is
  | .isr :: is => IsrServiced ie false is
  | .start :: is => IsrServiced true (ie && waiting) is
  | .stop :: is => IsrServiced false false is
  | .stepLo _ _ :: is => IsrServiced ie waiting is
  | .stepHi _ _ :: is => IsrServiced ie waiting is
  | .dn :: is => IsrServiced ie waiting is
  | .up :: is => IsrServiced ie waiting is
  | .loopSample :: is => IsrServiced ie waiting is
  | .loopFinish :: is => IsrServiced ie waiting is
  | .tempoAdv :: is => IsrServiced ie waiting is
  | .patternLatch _ :: is => IsrServiced ie waiting is

/-- An endless run: each event completes in the state before it and gives the state after it. -/
def IsRun (events : Nat → Instr) (states : Nat → State) : Prop :=
  ∀ n, exec (events n) (states n) = .next (states (n + 1))

/-- From event `n` on, an ISR occurs before the next OVF, or IE is 0 before the next OVF. -/
def ServicedFrom (events : Nat → Instr) (states : Nat → State) (n : Nat) : Prop :=
  ∃ m, n ≤ m ∧ (events m = .isr ∨ (states m).ie = false) ∧ ∀ k, n ≤ k → k < m → events k ≠ .ovf

/-- The premise `ISR_SERVICED` (60_exceptions.md R160) of an endless run: "while `IE = 1`, after each OVF an ISR event occurs
before the next OVF". DEDUCED (entry 24): the ISR does occur, so the last OVF of a run is served too, unless IE is cleared
first; an OVF from before the run, still pending where it begins, is one of those served. safe. -/
def IsrServicedForever (events : Nat → Instr) (states : Nat → State) : Prop :=
  ((states 0).ie = true → (states 0).tovf.val = true → ServicedFrom events states 0) ∧
  ∀ n, events n = .ovf → (states n).ie = true → ServicedFrom events states (n + 1)

/-- The first `n` events of an endless run. -/
def firstEvents (events : Nat → Instr) (n : Nat) : List Instr := (List.range n).map events

/-- The premise `LOOP_FAIR` (60_exceptions.md R160) of an endless run: iterations occur infinitely often. -/
def LoopFair (events : Nat → Instr) : Prop :=
  (∀ n, ∃ m, n ≤ m ∧ events m = .loopSample) ∧ ∀ n, ∃ m, n ≤ m ∧ events m = .loopFinish

/-- Two states hold the same in all that the interrupt context reads: "The interrupt context reads only `IE`, `TOVF`,
`ACC`, `SUC` and `TIDX`" (10_state.md R39), and the tempo table. -/
def SameForIsr (s t : State) : Prop :=
  t.cfg.tempoTable = s.cfg.tempoTable ∧ t.ie = s.ie ∧ t.tovf = s.tovf ∧ t.acc = s.acc ∧ t.suc = s.suc ∧ t.tidx = s.tidx

end Sys2Proof.Safety
end

