-- ==== Sys2Proof/Certificates/Slice0/Obligations.lean ====
section
/-! DEFINITION. The statements for the provers, from the spec's numbered rules. Each docstring names what it states; where
it rests on an inference the spec marks as its own, or on a choice of the model, it says so. -/

open Sys2Proof Sys2Proof.Machine Sys2Proof.Safety

/-! Encoding. -/

/-- The event words of 30_encoding.md R77 decode to their events. -/
def Obligations.EventWordsDecode : Prop :=
  decodeEvt8 0x10 = .ok .ovf ∧ decodeEvt8 0x20 = .ok .isr ∧ decodeEvt8 0x30 = .ok .loopSample ∧
  decodeEvt8 0x31 = .ok .loopFinish ∧ decodeEvt8 0x40 = .ok .start ∧ decodeEvt8 0x41 = .ok .stop ∧
  decodeEvt8 0x42 = .ok .tempoAdv ∧ ∀ n : BitVec 4, decodeEvt8 (0x5#4 ++ n) = .ok (.patternLatch n)

/-- Words of the other two formats, written out from 30_encoding.md R71, R74 and R80: `STEP HI, 3, 5` is 0xB5, `STEP LO, 0,
0` is 0x00, `UP` is 1 and `DN` is 0. -/
def Obligations.StepElementWordsDecode : Prop :=
  decode .step8 0b10110101 = .ok (.stepHi 3 5) ∧ decode .step8 0b00000000 = .ok (.stepLo 0 0) ∧
  decode .step8 0b01011100 = .ok (.stepLo 5 12) ∧ decode .step8 0b11111111 = .ok (.stepHi 7 15) ∧
  decode .dpcm1 1 = .ok .up ∧ decode .dpcm1 0 = .ok .dn

/-- 30_encoding.md R79: a reserved word spells no event, and the machine refuses it by name. -/
def Obligations.ReservedEventWordsRefused : Prop :=
  (∀ w : Byte, decodeEvt8 w = .error .reservedEvent ↔ ∀ i : Instr, i.format = .evt8 → encodeWord i ≠ w) ∧
  ∀ (s : State) (w : Byte) (rest : List Byte), s.InstanceWf → s.stream = w :: rest →
    (∀ i : Instr, i.format = .evt8 → encodeWord i ≠ w) → step s = .refused .reservedEvent

/-- The decoders and the encoder agree on every instruction and every word of the three formats. -/
def Obligations.DecodeEncodeAgree : Prop :=
  (∀ i : Instr, decode (encode i).1 (encode i).2 = .ok i) ∧
  ∀ (f : Format) (w : Byte) (i : Instr), decode f w = .ok i → encode i = (f, w)

/-- 41_step_decoder.md R104: decoding is total, and the fields lose nothing; two bytes that differ only in bit 7 give the
same delay and volume window with the other width (30_encoding.md R73, an inference of the spec). -/
def Obligations.StepByteDecodeTotal : Prop :=
  ∀ (c : Config) (b : Byte), encodeWord (decodeStep8 b) = b ∧
    decodeStep c (b ^^^ 0x80) = { decodeStep c b with hi := !(decodeStep c b).hi }

/-! What a step is. -/

/-- The event word at the head of the stream is the instruction that runs, on the state without it. -/
def Obligations.StepRunsEventAtStreamHead : Prop :=
  ∀ (s : State) (i : Instr) (rest : List Byte), s.InstanceWf → i.format = .evt8 →
    s.stream = encodeWord i :: rest → step s = exec i { s with stream := rest }

/-- Where no word waits, an enabled event runs (the model's choice, entry 5; for every value of the free choice). -/
def Obligations.StepRunsAnEnabledEvent : Prop :=
  ∀ s : State, s.InstanceWf → s.stream = [] →
    ∃ i, i ∈ s.enabled ∧ step s = exec i { s with choices := s.choices + 1 }

/-- 00_scope.md R9: an instance that is not well formed is refused by name. -/
def Obligations.IllFormedInstanceRefused : Prop :=
  ∀ s : State, ¬ s.InstanceWf → step s = .refused .configNotWf

/-- LOOP_FINISH in Playing, noise variant: rollover or not, SEEN and CUR are written, and the step byte at `P * L + CUR` is
fetched and run as the element it spells (43_audio_output.md R122, R124, R125; 41_step_decoder.md R108). -/
def Obligations.FinishRunsFetchedStepByte : Prop :=
  ∀ s : State, s.cfg.variant = .noise → s.run = true → s.mph = .sampled → s.slatch.written = true →
    s.seen.written = true → s.slatch.val ≠ 0#8 → 1 ≤ s.cfg.len → s.pat.toNat < s.cfg.npat →
    (s.cfg.len < s.slatch.val.toNat →
      exec .loopFinish s = exec (decodeStep8 (s.rom.read (s.pat.toNat * s.cfg.len)))
        { s with mph := .ready, suc := .put 1, seen := .put 1, cur := .put 0 }) ∧
    (s.slatch.val.toNat ≤ s.cfg.len →
      exec .loopFinish s = exec (decodeStep8 (s.rom.read (s.pat.toNat * s.cfg.len + (s.slatch.val.toNat - 1))))
        { s with mph := .ready, seen := .put s.slatch.val, cur := .put (s.slatch.val - 1) })

/-- The bit of byte `b` that is bit `k` of its pattern: `byte[7 - (k AND 7)]` or `byte[k AND 7]` (41_step_decoder.md
R106). -/
def stepBitOf (o : BitOrder) (b : Byte) (k : Nat) : Bool :=
  match o with
  | .msbFirst => b.getLsbD (7 - k % 8)
  | .lsbFirst => b.getLsbD (k % 8)

/-- LOOP_FINISH in Playing, DPCM variant: with a new step update, the bit at `(P, CUR)` is fetched and run as the element it
spells (43_audio_output.md R122, R124, R125; 41_step_decoder.md R106). -/
def Obligations.FinishRunsFetchedStepBit : Prop :=
  ∀ s : State, s.cfg.variant = .dpcm → s.run = true → s.mph = .sampled → s.slatch.written = true →
    s.seen.written = true → s.slatch.val ≠ 0#8 → s.slatch.val ≠ s.seen.val → 1 ≤ s.cfg.len →
    s.pat.toNat < s.cfg.npat →
    (s.cfg.len < s.slatch.val.toNat →
      exec .loopFinish s = exec
        (decodeDpcm1 (stepBitOf s.cfg.dpcmBitOrder (s.rom.read (s.pat.toNat * ((s.cfg.len + 7) / 8))) 0))
        { s with mph := .ready, suc := .put 1, seen := .put 1, cur := .put 0 }) ∧
    (s.slatch.val.toNat ≤ s.cfg.len →
      exec .loopFinish s = exec
        (decodeDpcm1 (stepBitOf s.cfg.dpcmBitOrder
          (s.rom.read (s.pat.toNat * ((s.cfg.len + 7) / 8) + (s.slatch.val.toNat - 1) / 8)) (s.slatch.val.toNat - 1)))
        { s with mph := .ready, seen := .put s.slatch.val, cur := .put (s.slatch.val - 1) })

/-! The tempo clock. -/

/-- 42_tempo_clock.md R110: OVF completes in every state and sets TOVF; nothing else changes. -/
def Obligations.OvfSetsPending : Prop :=
  ∀ s : State, exec .ovf s = .next { s with tovf := .put true }

/-- 60_exceptions.md R154: any number of OVF events leave TOVF = 1 and nothing else changed, so one ISR serves them. -/
def Obligations.OverflowsCoalesce : Prop :=
  ∀ (s : State) (n : Nat), execAll (List.replicate (n + 1) .ovf) s = .next { s with tovf := .put true }

/-- 42_tempo_clock.md R112: one serviced tick, with its frame. -/
def Obligations.IsrServicesTick : Prop :=
  ∀ (s : State) (th : Word16), s.ie = true → s.tovf.val = true → s.cfg.tempoTable[s.tidx.toNat]? = some th →
    ∃ t, exec .isr s = .next t ∧ t.tovf = .put false ∧
      (th.toNat ≤ (s.acc.val + 1).toNat → t.acc = .put 0 ∧ t.suc = .put (s.suc.val + 1)) ∧
      (¬ th.toNat ≤ (s.acc.val + 1).toNat → t.acc = .put (s.acc.val + 1) ∧ t.suc = s.suc) ∧
      t = { s with tovf := t.tovf, acc := t.acc, suc := t.suc, faults := t.faults } ∧
      (s.tovf.written = true → s.acc.written = true → s.suc.written = true → t.faults = s.faults)

/-- 42_tempo_clock.md R111: the ISR is enabled exactly when `IE = 1` and `TOVF = 1`; elsewhere it is refused by name. -/
def Obligations.IsrEnabledExactly : Prop :=
  ∀ s : State, s.tidx.toNat < s.cfg.tempoTable.length →
    ((∃ t, exec .isr s = .next t) ↔ s.ie = true ∧ s.tovf.val = true) ∧
    (¬ (s.ie = true ∧ s.tovf.val = true) → exec .isr s = .refused .isrNotPending)

/-- The interrupt context reads only IE, TOVF, ACC, SUC and TIDX (10_state.md R39): two states that agree on these get the
same TOVF, ACC and SUC, whatever the main loop's registers hold. -/
def Obligations.IsrSeesOnlyItsRegisters : Prop :=
  ∀ s s' t : State, SameForIsr s s' → exec .isr s = .next t →
    ∃ t', exec .isr s' = .next t' ∧ t'.tovf = t.tovf ∧ t'.acc = t.acc ∧ t'.suc = t.suc

/-- 42_tempo_clock.md R114: TEMPO_ADV steps TIDX modulo N_TEMPO and changes nothing else; N_TEMPO of them change nothing;
with `N_TEMPO = 1` one changes nothing (R118). -/
def Obligations.TempoAdvStepsIndex : Prop :=
  ∀ s : State, s.mph = .ready → s.tidx.toNat < s.cfg.nTempo →
    (∃ t, exec .tempoAdv s = .next t ∧ t.tidx.toNat = (s.tidx.toNat + 1) % s.cfg.nTempo ∧
      t = { s with tidx := t.tidx }) ∧
    execAll (List.replicate s.cfg.nTempo .tempoAdv) s = .next s ∧
    (s.cfg.variant = .dpcm → exec .tempoAdv s = .next s)

/-- TEMPO_ADV in a state of any TIDX: it still steps modulo N_TEMPO. -/
def Obligations.TempoAdvAnyIndex : Prop :=
  ∀ s : State, s.mph = .ready →
    ∃ t, exec .tempoAdv s = .next t ∧ t.tidx.toNat = (s.tidx.toNat + 1) % s.cfg.nTempo ∧ t = { s with tidx := t.tidx }

/-- Step-update period (42_tempo_clock.md, an inference of the spec): from `ACC = 0`, `n` serviced ticks step SUC exactly
when `n` reaches the threshold. -/
def Obligations.StepUpdatePeriod : Prop :=
  ∀ (s : State) (th : Word16) (n : Nat), s.ie = true → s.acc.val = 0 →
    s.cfg.tempoTable[s.tidx.toNat]? = some th → n ≤ th.toNat →
    ∃ t, execAll (ticks n) s = .next t ∧
      (n < th.toNat → t.suc.val = s.suc.val ∧ t.acc.val.toNat = n) ∧
      (n = th.toNat → 1 ≤ n → t.suc.val = s.suc.val + 1 ∧ t.acc.val = 0)

/-- Under ISR_SERVICED no tick is lost while `IE = 1` (60_exceptions.md R154, R160): wherever an OVF comes with `IE = 1`, no
overflow is pending. -/
def Obligations.ServicedRunsLoseNoTick : Prop :=
  ∀ (s t : State) (pre post : List Instr), s.ie = s.run →
    IsrServiced s.ie s.tovf.val (pre ++ .ovf :: post) = true → execAll pre s = .next t → t.ie = true →
    t.tovf.val = false

/-! The audio output stage. -/

/-- 43_audio_output.md R121: LOOP_SAMPLE in its three cases. -/
def Obligations.LoopSampleReadsOnce : Prop :=
  ∀ s : State,
    (s.mph = .ready → s.run = true → s.suc.written = true →
      exec .loopSample s = .next { s with slatch := .put s.suc.val, mph := .sampled }) ∧
    (s.mph = .ready → s.run = false → exec .loopSample s = .next { s with mph := .sampled }) ∧
    (s.mph = .sampled → exec .loopSample s = .refused .loopPhase)

/-- A read of a register never written since power-on records UNINIT_READ and the event completes (10_state.md R41,
60_exceptions.md R150): each read the events make of such a register, TOVF, ACC and SUC by ISR, SUC by LOOP_SAMPLE, SLATCH
and SEEN by LOOP_FINISH, DCTR, RNG and AMP by the step elements. The value read is the register's (entry 3), for every such
value. -/
def Obligations.UnwrittenReadIsRecorded : Prop :=
  ∀ s : State,
    (s.mph = .ready → s.run = true → s.suc.written = false →
      exec .loopSample s = .next { s with
        slatch := .put s.suc.val, mph := .sampled, faults := { s.faults with uninitRead := true } }) ∧
    (∀ th : Word16, s.ie = true → s.tovf.val = true → s.cfg.tempoTable[s.tidx.toNat]? = some th →
      (s.tovf.written = false ∨ s.acc.written = false ∨
        (th.toNat ≤ (s.acc.val + 1).toNat ∧ s.suc.written = false)) →
      ∃ t, exec .isr s = .next t ∧ t.faults = { s.faults with uninitRead := true }) ∧
    (s.mph = .sampled → s.run = true → 1 ≤ s.cfg.len → s.pat.toNat < s.cfg.npat →
      (s.slatch.written = false ∨ (s.slatch.val ≠ 0#8 ∧ s.seen.written = false)) →
      ∃ t, exec .loopFinish s = .next t ∧ t.faults.uninitRead = true) ∧
    (s.cfg.variant = .noise → ∀ (v : BitVec 3) (d : BitVec 4),
      (s.dctr.written = false ∨
        (s.cfg.delayTable[d.toNat].toNat ≤ s.dctr.val.toNat ∧ s.rng.written = false)) →
      (∃ t, exec (.stepHi v d) s = .next t ∧ t.faults.uninitRead = true) ∧
      ∃ t, exec (.stepLo v d) s = .next t ∧ t.faults.uninitRead = true) ∧
    (s.cfg.variant = .dpcm → s.amp.written = false →
      (∃ t, exec .up s = .next t ∧ t.faults = { s.faults with uninitRead := true }) ∧
      ∃ t, exec .dn s = .next t ∧ t.faults = { s.faults with uninitRead := true })

/-- 60_exceptions.md R152: the wrong phase is refused by name. -/
def Obligations.WrongPhaseRefused : Prop :=
  ∀ s : State,
    (s.mph = .sampled → exec .loopSample s = .refused .loopPhase ∧ exec .start s = .refused .loopPhase ∧
      exec .stop s = .refused .loopPhase ∧ exec .tempoAdv s = .refused .loopPhase ∧
      ∀ n, exec (.patternLatch n) s = .refused .loopPhase) ∧
    (s.mph = .ready → exec .loopFinish s = .refused .loopPhase)

/-- LOOP_FINISH in Idle writes QUIESCENT and nothing else but MPH (43_audio_output.md R122). -/
def Obligations.FinishIdleWritesQuiescent : Prop :=
  ∀ s : State, s.mph = .sampled → s.run = false →
    exec .loopFinish s = .next { s with
      mph := .ready, pwm := .put s.cfg.quiescent, writes := s.writes ++ [s.cfg.quiescent] }

/-- 43_audio_output.md R123: with no step yet, LOOP_FINISH changes nothing but MPH. -/
def Obligations.FinishBeforeFirstStep : Prop :=
  ∀ s : State, s.mph = .sampled → s.run = true → s.slatch.written = true → s.slatch.val = 0#8 →
    exec .loopFinish s = .next { s with mph := .ready }

/-- The noise gate fires (43_audio_output.md R126, R127): the LFSR advances first, and the sample is computed from the
advanced state; DCTR is cleared; nothing else changes. -/
def Obligations.NoiseGateFires : Prop :=
  ∀ (s : State) (v : BitVec 3) (d : BitVec 4), s.cfg.variant = .noise → s.dctr.written = true →
    s.rng.written = true → s.rng.val ≠ 0#16 → s.cfg.delayTable[d.toNat].toNat ≤ s.dctr.val.toNat →
    (let r := advance s.cfg.lowresForm s.rng.val true
     let a : Byte := (r.extractLsb' 0 8 &&& s.cfg.volMask[v.toNat]) + s.cfg.volOffset[v.toNat]
     exec (.stepHi v d) s = .next { s with
       dctr := .put 0, rng := .put r, pwm := .put a, writes := s.writes ++ [a] }) ∧
    (let r := advance s.cfg.lowresForm s.rng.val false
     let a : Byte := (r.extractLsb' 0 8 &&& s.cfg.volMask[v.toNat]) + s.cfg.volOffset[v.toNat]
     exec (.stepLo v d) s = .next { s with
       dctr := .put 0, rng := .put r, pwm := .put a, writes := s.writes ++ [a] })

/-- 43_audio_output.md R128: the gate does not fire; DCTR counts and nothing else changes. -/
def Obligations.NoiseGateHolds : Prop :=
  ∀ (s : State) (v : BitVec 3) (d : BitVec 4), s.cfg.variant = .noise → s.dctr.written = true →
    s.dctr.val.toNat < s.cfg.delayTable[d.toNat].toNat →
    exec (.stepHi v d) s = .next { s with dctr := .put (s.dctr.val + 1) } ∧
    exec (.stepLo v d) s = .next { s with dctr := .put (s.dctr.val + 1) }

/-- The step elements complete in every state of their variant, whatever the registers hold. -/
def Obligations.StepElementsComplete : Prop :=
  ∀ s : State,
    (s.cfg.variant = .noise → ∀ v d, (∃ t, exec (.stepLo v d) s = .next t ∧ t.cfg = s.cfg ∧ t.rom = s.rom ∧
        t.cur = s.cur ∧ t.seen = s.seen ∧ t.suc = s.suc ∧ t.amp = s.amp) ∧
      ∃ t, exec (.stepHi v d) s = .next t ∧ t.cfg = s.cfg ∧ t.rom = s.rom ∧
        t.cur = s.cur ∧ t.seen = s.seen ∧ t.suc = s.suc ∧ t.amp = s.amp) ∧
    (s.cfg.variant = .dpcm → (∃ t, exec .up s = .next t ∧ t.amp.val = s.amp.val + s.cfg.dpcmDelta) ∧
      ∃ t, exec .dn s = .next t ∧ t.amp.val = s.amp.val - s.cfg.dpcmDelta)

/-- A step element of the other variant is refused by name (the model's choice, entry 10). -/
def Obligations.OtherVariantElementRefused : Prop :=
  ∀ s : State,
    (s.cfg.variant = .dpcm → ∀ v d, exec (.stepLo v d) s = .refused .wrongVariant ∧
      exec (.stepHi v d) s = .refused .wrongVariant) ∧
    (s.cfg.variant = .noise → exec .up s = .refused .wrongVariant ∧ exec .dn s = .refused .wrongVariant)

/-- 43_audio_output.md R129: the integrator moves by the delta modulo 256, with no saturation, and PWM takes its value. -/
def Obligations.DpcmElementsMoveAmplitude : Prop :=
  ∀ s : State, s.cfg.variant = .dpcm → s.amp.written = true →
    (let a : Byte := BitVec.ofNat 8 ((s.amp.val.toNat + s.cfg.dpcmDelta.toNat) % 256)
     exec .up s = .next { s with amp := .put a, pwm := .put a, writes := s.writes ++ [a] }) ∧
    (let a : Byte := BitVec.ofNat 8 ((s.amp.val.toNat + (256 - s.cfg.dpcmDelta.toNat)) % 256)
     exec .dn s = .next { s with amp := .put a, pwm := .put a, writes := s.writes ++ [a] })

/-- 43_audio_output.md R130: a LOOP_FINISH in Playing with no new step update emits nothing in the DPCM variant, and PWM and
AMP keep their values. Inside the pattern the whole next state is given: SEEN and CUR are written again. -/
def Obligations.DpcmGateHolds : Prop :=
  ∀ s : State, s.cfg.variant = .dpcm → s.mph = .sampled → s.run = true → s.slatch.val = s.seen.val →
    (∃ t, exec .loopFinish s = .next t ∧ t.pwm = s.pwm ∧ t.amp = s.amp ∧ t.writes = s.writes) ∧
    (s.slatch.written = true → s.seen.written = true → s.slatch.val ≠ 0#8 → s.slatch.val.toNat ≤ s.cfg.len →
      exec .loopFinish s = .next { s with
        mph := .ready, seen := .put s.slatch.val, cur := .put (s.slatch.val - 1) })

/-- The sample is the exact sum and stays in the class's window (41_step_decoder.md R105). -/
def Obligations.AmplitudeStaysInWindow : Prop :=
  ∀ (c : Config) (r : Word16) (v : BitVec 3), c.wf = true →
    (ampl r (c.maskOf v) (c.offsetOf v)).toNat =
      (r.extractLsb' 0 8 &&& c.maskOf v).toNat + (c.offsetOf v).toNat ∧
    (c.offsetOf v).toNat ≤ (ampl r (c.maskOf v) (c.offsetOf v)).toNat ∧
    (ampl r (c.maskOf v) (c.offsetOf v)).toNat ≤ (c.offsetOf v).toNat + (c.maskOf v).toNat

/-- Emission period of the noise variant (43_audio_output.md, an inference of the spec): with one step byte in force and
`DCTR = 0`, every `(dly + 1)`-th audio tick emits one sample and no other audio tick emits. After `k` periods and `n` more
ticks the samples written are those of the first `k` LFSR outputs, and DCTR is `n`. -/
def Obligations.NoiseEmissionPeriod : Prop :=
  ∀ (s : State) (b : Byte), Inv s → s.cfg.variant = .noise → s.run = true → s.mph = .ready → s.suc.val ≠ 0#8 →
    s.suc.val.toNat ≤ s.cfg.len → s.dctr.val = 0 →
    s.rom.read (s.pat.toNat * s.cfg.len + (s.suc.val.toNat - 1)) = b →
    ∀ k n, n ≤ (decodeStep s.cfg b).dly.toNat →
      (let rngAfter := fun j => advanceN s.cfg.lowresForm (decodeStep s.cfg b).hi j s.rng.val
       let sample := fun j => ampl (rngAfter (j + 1)) (decodeStep s.cfg b).mask (decodeStep s.cfg b).off
       ∃ t, execAll (loops (k * ((decodeStep s.cfg b).dly.toNat + 1) + n)) s = .next t ∧ Inv t ∧
         t.writes = s.writes ++ (List.range k).map sample ∧ t.rng.val = rngAfter k ∧ t.dctr.val.toNat = n ∧
         (k = 0 → t.pwm = s.pwm) ∧ (∀ j, k = j + 1 → t.pwm = .put (sample j)) ∧
         t.suc = s.suc ∧ t.pat = s.pat ∧ t.cfg = s.cfg ∧ t.rom = s.rom ∧ t.run = s.run ∧ t.mph = s.mph)

/-- The rollover lost update (70_reset_and_hazards.md, an inference of the spec): an ISR between the two halves of an
iteration that rolls over steps SUC, and LOOP_FINISH overwrites it with 1. -/
def Obligations.RolloverLosesUpdate : Prop :=
  ∀ (s : State) (th : Word16), Inv s → s.run = true → s.mph = .ready → s.cfg.len < s.suc.val.toNat →
    s.cfg.tempoTable[s.tidx.toNat]? = some th → th.toNat ≤ s.acc.val.toNat + 1 →
    ∃ m t, execAll [.loopSample, .ovf, .isr] s = .next m ∧ m.suc.val = s.suc.val + 1 ∧
      exec .loopFinish m = .next t ∧ t.suc.val = 1 ∧ t.cur.val = 0 ∧ t.seen.val = 1

/-! The LFSR. -/

/-- 40_lfsr.md R91: the bits of the 15-bit step. -/
def Obligations.HighStepBits : Prop :=
  ∀ (f : LowresForm) (c : Word16), (advance f c true).getLsbD 15 = false ∧
    (advance f c true).getLsbD 14 = ((c.getLsbD 1 ^^ c.getLsbD 0) || c.getLsbD 15) ∧
    ∀ i, i < 14 → (advance f c true).getLsbD i = c.getLsbD (i + 1)

/-- 40_lfsr.md R92: the bits of the PINNED 7-bit step. -/
def Obligations.PinnedStepBits : Prop :=
  ∀ c : Word16, (∀ i, 7 ≤ i → (advance .pinned c false).getLsbD i = c.getLsbD i) ∧
    (advance .pinned c false).getLsbD 6 = (c.getLsbD 1 ^^ c.getLsbD 0) ∧
    ∀ i, i < 6 → (advance .pinned c false).getLsbD i = c.getLsbD (i + 1)

/-- 40_lfsr.md R93: the bits of the SHIFTED 7-bit step. -/
def Obligations.ShiftedStepBits : Prop :=
  ∀ c : Word16, (advance .shifted c false).getLsbD 6 = ((c.getLsbD 1 ^^ c.getLsbD 0) || c.getLsbD 7) ∧
    ∀ i, i ≠ 6 → (advance .shifted c false).getLsbD i = c.getLsbD (i + 1)

/-- 40_lfsr.md R94: ADVANCE of 0 records LFSR_ZERO, leaves RNG at 0, and the rest completes with `r = 0`. -/
def Obligations.ZeroStateIsRecorded : Prop :=
  ∀ (s : State) (v : BitVec 3) (d : BitVec 4), s.cfg.variant = .noise → s.dctr.written = true →
    s.rng.written = true → s.rng.val = 0#16 → s.cfg.delayTable[d.toNat].toNat ≤ s.dctr.val.toNat →
    (let t : State := { s with
       dctr := .put 0, rng := .put 0, pwm := .put s.cfg.volOffset[v.toNat],
       writes := s.writes ++ [s.cfg.volOffset[v.toNat]], faults := { s.faults with lfsrZero := true } }
     exec (.stepHi v d) s = .next t ∧ exec (.stepLo v d) s = .next t)

/-- The LFSR invariant (40_lfsr.md, an inference of the spec): no step leaves the non-zero states with bit 15 clear, in
either reading of the 7-bit step. -/
def Obligations.AdvanceKeepsNonzero : Prop :=
  ∀ (f : LowresForm) (c : Word16) (hi : Bool), c ≠ 0#16 → c.getLsbD 15 = false →
    advance f c hi ≠ 0#16 ∧ (advance f c hi).getLsbD 15 = false

/-- The 15-bit cycle is maximal (40_lfsr.md, an inference of the spec): from any non-zero state with bit 15 clear it returns
after exactly 32767 steps, and visits every such state. -/
def Obligations.HighCycleIsMaximal : Prop :=
  ∀ (f : LowresForm) (c : Word16), c ≠ 0#16 → c.getLsbD 15 = false →
    advanceN f true 32767 c = c ∧ (∀ n, 0 < n → n < 32767 → advanceN f true n c ≠ c) ∧
    ∀ d : Word16, d ≠ 0#16 → d.getLsbD 15 = false → ∃ n, n < 32767 ∧ advanceN f true n c = d

/-- The PINNED 7-bit cycle has period exactly 127 with bits 15..7 constant (40_lfsr.md, an inference of the spec). -/
def Obligations.PinnedCycleIs127 : Prop :=
  ∀ c : Word16, c.extractLsb' 0 7 ≠ 0#7 →
    advanceN .pinned false 127 c = c ∧ (∀ n, 0 < n → n < 127 → advanceN .pinned false n c ≠ c) ∧
    ∀ n, (advanceN .pinned false n c).extractLsb' 7 9 = c.extractLsb' 7 9

/-- The low-resolution lock under PINNED, and none under SHIFTED (40_lfsr.md, an inference of the spec). -/
def Obligations.PinnedLock : Prop :=
  ∀ c : Word16, c ≠ 0#16 → c.extractLsb' 0 7 = 0#7 →
    advance .pinned c false = c ∧ advance .shifted c false ≠ c

/-! The control commands. -/

/-- 44_control_commands.md R141: START in Idle, every register it writes, and its frame. -/
def Obligations.StartFromIdle : Prop :=
  ∀ s : State, s.mph = .ready → s.run = false →
    exec .start s = .next { s with
      suc := .put 0, acc := .put 0, cur := .put 0, seen := .put 0, rng := .put s.cfg.seed, tovf := .put false,
      dctr := .put 0, amp := .put s.cfg.quiescent, run := true, ie := true }

/-- 44_control_commands.md R142, R144: START in Playing and STOP in Idle change nothing. -/
def Obligations.RepeatedCommandsChangeNothing : Prop :=
  ∀ s : State, s.mph = .ready →
    (s.run = true → exec .start s = .next s) ∧ (s.run = false → exec .stop s = .next s)

/-- 44_control_commands.md R143: STOP in Playing, every register it writes, and its frame. -/
def Obligations.StopFromPlaying : Prop :=
  ∀ s : State, s.mph = .ready → s.run = true →
    exec .stop s = .next { s with
      ie := false, run := false, dctr := .put 0, amp := .put s.cfg.quiescent, pwm := .put s.cfg.quiescent,
      writes := s.writes ++ [s.cfg.quiescent] }

/-- 44_control_commands.md R145: the latched pattern is clamped, in Idle and Playing, and nothing else changes. -/
def Obligations.PatternLatchClamps : Prop :=
  ∀ (s : State) (n : BitVec 4), s.mph = .ready →
    ∃ t, exec (.patternLatch n) s = .next t ∧ t.pat.toNat = min n.toNat (s.cfg.npat - 1) ∧ t = { s with pat := t.pat }

/-- Restart equivalence (44_control_commands.md, an inference of the spec): STOP then START in Playing leaves what power-on
then START leaves, but for TIDX, P, PWM, SLATCH and the observation. -/
def Obligations.RestartEquivalence : Prop :=
  ∀ s t u : State, s.mph = .ready → s.run = true → s.faults = FaultSet.empty →
    execAll [.stop, .start] s = .next t → exec .start (State.powerOn s.cfg s.rom) = .next u →
    t = { u with
      tidx := s.tidx, pat := s.pat, pwm := .put s.cfg.quiescent, slatch := s.slatch,
      writes := s.writes ++ [s.cfg.quiescent], stream := s.stream, choices := s.choices }

/-- End to end (95_test_vectors.md E10): from any Idle state of a well-formed noise instance, START and exactly `threshold`
serviced ticks make SUC 1, and where the first step's delay is 0 the next audio tick writes the sample of the first LFSR
output after the seed. -/
def Obligations.EndToEndFirstSample : Prop :=
  ∀ (s : State) (th : Word16) (b : Byte), Inv s → s.cfg.variant = .noise → s.run = false → s.mph = .ready →
    s.cfg.tempoTable[s.tidx.toNat]? = some th → s.rom.read (s.pat.toNat * s.cfg.len) = b →
    (decodeStep s.cfg b).dly = 0 →
    ∃ m t, execAll (.start :: ticks th.toNat) s = .next m ∧ m.suc.val = 1 ∧ m.writes = s.writes ∧
      execAll (loops 1) m = .next t ∧ t.cur.val = 0 ∧
      t.rng.val = advance s.cfg.lowresForm s.cfg.seed (decodeStep s.cfg b).hi ∧
      t.writes = s.writes ++ [ampl t.rng.val (decodeStep s.cfg b).mask (decodeStep s.cfg b).off]

/-! The whole machine. -/

/-- 10_state.md R41: the power-on values the spec gives, and every other register unwritten. -/
def Obligations.PowerOnValues : Prop :=
  ∀ (c : Config) (m : Memory),
    (let s := State.powerOn c m
     s.run = false ∧ s.ie = false ∧ s.tidx = 0 ∧ s.pat = 0 ∧ s.mph = .ready ∧ s.faults = FaultSet.empty ∧
     s.tovf.written = false ∧ s.acc.written = false ∧ s.suc.written = false ∧ s.slatch.written = false ∧
     s.cur.written = false ∧ s.seen.written = false ∧ s.rng.written = false ∧ s.dctr.written = false ∧
     s.amp.written = false ∧ s.pwm.written = false)

/-- The invariants hold at power-on of every well-formed instance, and at State.reset. -/
def Obligations.PowerOnMeetsInv : Prop :=
  (∀ (c : Config) (m : Memory), (State.powerOn c m).InstanceWf → Inv (State.powerOn c m)) ∧ Inv State.reset

/-- Every step keeps the invariants (10_state.md section 4, an inference of the spec). -/
def Obligations.StepKeepsInv : Prop :=
  ∀ s t : State, Inv s → step s = .next t → Inv t

/-- 10_state.md R39: no instruction writes a part of the state that the ownership table does not give it; the ROM and the
configuration are given to none, and every byte of the ROM reads as before. -/
def Obligations.InstructionsRespectOwnership : Prop :=
  ∀ (i : Instr) (s t : State), exec i s = .next t →
    (∀ p : Part, p ∉ mayWrite i → Same p s t) ∧ ∀ a, t.rom.read a = s.rom.read a

/-- No step writes the ROM or the configuration (20_memory.md R64, 00_scope.md R8). -/
def Obligations.StepKeepsProgramAndConfig : Prop :=
  ∀ s t : State, step s = .next t → t.cfg = s.cfg ∧ t.rom = s.rom ∧ ∀ a, t.rom.read a = s.rom.read a

/-- In the DPCM variant LOOP_FINISH leaves RNG and DCTR; in the noise variant it leaves AMP (10_state.md R33 to R35). -/
def Obligations.FinishLeavesOtherVariantRegisters : Prop :=
  ∀ s t : State, exec .loopFinish s = .next t →
    (s.cfg.variant = .dpcm → t.rng = s.rng ∧ t.dctr = s.dctr) ∧ (s.cfg.variant = .noise → t.amp = s.amp)

/-- 60_exceptions.md R150: a fault, once recorded, is never cleared. -/
def Obligations.FaultsAreNeverCleared : Prop :=
  ∀ s t : State, step s = .next t →
    (s.faults.lfsrZero = true → t.faults.lfsrZero = true) ∧ (s.faults.uninitRead = true → t.faults.uninitRead = true)

/-- The observation is the sequence of PWM writes (00_scope.md R15): an instruction writes PWM at most once, and PWM holds
the last value written. -/
def Obligations.PwmWritesAreObserved : Prop :=
  ∀ (i : Instr) (s t : State), exec i s = .next t →
    (t.writes = s.writes ∧ t.pwm = s.pwm) ∨ ∃ v, t.writes = s.writes ++ [v] ∧ t.pwm = .put v

/-- The enabled events are exactly those that complete; the rest are refused (20_memory.md section 5). -/
def Obligations.EnabledEventsAreThoseThatRun : Prop :=
  ∀ (s : State) (i : Instr), Inv s → i.format = .evt8 →
    (i ∈ s.enabled → ∃ t, exec i s = .next t) ∧ (i ∉ s.enabled → ∃ r, exec i s = .refused r)

/-- No reachable state stops with a fault, and where no word waits the core always goes on: it "never stops" (00_scope.md
R15). For every value of the free choice (entry 5). -/
def Obligations.CoreNeverStops : Prop :=
  ∀ s : State, Inv s → (∀ f, step s ≠ .fault f) ∧ (s.stream = [] → ∃ t, step s = .next t ∧ Inv t)

/-- In an endless run that meets ISR_SERVICED every pending ISR is eventually taken, while `IE = 1` (60_exceptions.md R160,
with the model's reading of ISR_SERVICED of an endless run, entry 24).
That the run is endless, with its iterations in it, is what LOOP_FAIR gives; the statement needs no more of it. -/
def Obligations.PendingTickIsTaken : Prop :=
  ∀ (events : Nat → Instr) (states : Nat → State), IsRun events states → IsrServicedForever events states →
    ∀ n, (states n).ie = true → (states n).tovf.val = true →
      ∃ m, n ≤ m ∧ (events m = .isr ∨ (states m).ie = false)

/-- The two forms of ISR_SERVICED (60_exceptions.md R160, entry 24) agree: every prefix of an endless serviced run is a serviced finite
run, so no tick is lost in it. -/
def Obligations.ServicedRunPrefixesAreServiced : Prop :=
  ∀ (events : Nat → Instr) (states : Nat → State), IsRun events states → IsrServicedForever events states →
    (states 0).ie = (states 0).run →
    (∀ n, IsrServiced (states 0).ie (states 0).tovf.val (firstEvents events n) = true) ∧
    ∀ n, events n = .ovf → (states n).ie = true → (states n).tovf.val = false
end

