-- ==== Sys2Proof/Laws/State.lean ====
section
/-! SUPPORT. What each named update of the state writes and leaves, one lemma per field: no later proof unfolds one. -/

namespace Sys2Proof.Machine

open Sys2Proof

@[simp] theorem Reg.put_val {α : Type} (v : α) : (Reg.put v).val = v := rfl
@[simp] theorem Reg.put_written {α : Type} (v : α) : (Reg.put v).written = true := rfl
@[simp] theorem Reg.unwritten_val {α : Type} (v : α) : (Reg.unwritten v).val = v := rfl
@[simp] theorem Reg.unwritten_written {α : Type} (v : α) : (Reg.unwritten v).written = false := rfl

@[simp] theorem State.noteRead_true (s : State) : s.noteRead true = s := rfl
@[simp] theorem State.noteRead_false (s : State) : s.noteRead false = s.raise .uninitRead := rfl
@[simp] theorem State.returnFromInterrupt_eq (s : State) : s.returnFromInterrupt = s := rfl

/-! `State.raise`. -/

@[simp] theorem State.raise_cfg (s : State) (n : FaultName) :
    (s.raise n).cfg = s.cfg := rfl
@[simp] theorem State.raise_rom (s : State) (n : FaultName) :
    (s.raise n).rom = s.rom := rfl
@[simp] theorem State.raise_run (s : State) (n : FaultName) :
    (s.raise n).run = s.run := rfl
@[simp] theorem State.raise_ie (s : State) (n : FaultName) :
    (s.raise n).ie = s.ie := rfl
@[simp] theorem State.raise_tovf (s : State) (n : FaultName) :
    (s.raise n).tovf = s.tovf := rfl
@[simp] theorem State.raise_acc (s : State) (n : FaultName) :
    (s.raise n).acc = s.acc := rfl
@[simp] theorem State.raise_tidx (s : State) (n : FaultName) :
    (s.raise n).tidx = s.tidx := rfl
@[simp] theorem State.raise_suc (s : State) (n : FaultName) :
    (s.raise n).suc = s.suc := rfl
@[simp] theorem State.raise_slatch (s : State) (n : FaultName) :
    (s.raise n).slatch = s.slatch := rfl
@[simp] theorem State.raise_mph (s : State) (n : FaultName) :
    (s.raise n).mph = s.mph := rfl
@[simp] theorem State.raise_cur (s : State) (n : FaultName) :
    (s.raise n).cur = s.cur := rfl
@[simp] theorem State.raise_seen (s : State) (n : FaultName) :
    (s.raise n).seen = s.seen := rfl
@[simp] theorem State.raise_pat (s : State) (n : FaultName) :
    (s.raise n).pat = s.pat := rfl
@[simp] theorem State.raise_rng (s : State) (n : FaultName) :
    (s.raise n).rng = s.rng := rfl
@[simp] theorem State.raise_dctr (s : State) (n : FaultName) :
    (s.raise n).dctr = s.dctr := rfl
@[simp] theorem State.raise_amp (s : State) (n : FaultName) :
    (s.raise n).amp = s.amp := rfl
@[simp] theorem State.raise_pwm (s : State) (n : FaultName) :
    (s.raise n).pwm = s.pwm := rfl
@[simp] theorem State.raise_faults (s : State) (n : FaultName) :
    (s.raise n).faults = s.faults.insert n := rfl
@[simp] theorem State.raise_writes (s : State) (n : FaultName) :
    (s.raise n).writes = s.writes := rfl
@[simp] theorem State.raise_stream (s : State) (n : FaultName) :
    (s.raise n).stream = s.stream := rfl
@[simp] theorem State.raise_choices (s : State) (n : FaultName) :
    (s.raise n).choices = s.choices := rfl

/-! `State.noteRead`. -/

@[simp] theorem State.noteRead_cfg (s : State) (w : Bool) :
    (s.noteRead w).cfg = s.cfg := by cases w <;> rfl
@[simp] theorem State.noteRead_rom (s : State) (w : Bool) :
    (s.noteRead w).rom = s.rom := by cases w <;> rfl
@[simp] theorem State.noteRead_run (s : State) (w : Bool) :
    (s.noteRead w).run = s.run := by cases w <;> rfl
@[simp] theorem State.noteRead_ie (s : State) (w : Bool) :
    (s.noteRead w).ie = s.ie := by cases w <;> rfl
@[simp] theorem State.noteRead_tovf (s : State) (w : Bool) :
    (s.noteRead w).tovf = s.tovf := by cases w <;> rfl
@[simp] theorem State.noteRead_acc (s : State) (w : Bool) :
    (s.noteRead w).acc = s.acc := by cases w <;> rfl
@[simp] theorem State.noteRead_tidx (s : State) (w : Bool) :
    (s.noteRead w).tidx = s.tidx := by cases w <;> rfl
@[simp] theorem State.noteRead_suc (s : State) (w : Bool) :
    (s.noteRead w).suc = s.suc := by cases w <;> rfl
@[simp] theorem State.noteRead_slatch (s : State) (w : Bool) :
    (s.noteRead w).slatch = s.slatch := by cases w <;> rfl
@[simp] theorem State.noteRead_mph (s : State) (w : Bool) :
    (s.noteRead w).mph = s.mph := by cases w <;> rfl
@[simp] theorem State.noteRead_cur (s : State) (w : Bool) :
    (s.noteRead w).cur = s.cur := by cases w <;> rfl
@[simp] theorem State.noteRead_seen (s : State) (w : Bool) :
    (s.noteRead w).seen = s.seen := by cases w <;> rfl
@[simp] theorem State.noteRead_pat (s : State) (w : Bool) :
    (s.noteRead w).pat = s.pat := by cases w <;> rfl
@[simp] theorem State.noteRead_rng (s : State) (w : Bool) :
    (s.noteRead w).rng = s.rng := by cases w <;> rfl
@[simp] theorem State.noteRead_dctr (s : State) (w : Bool) :
    (s.noteRead w).dctr = s.dctr := by cases w <;> rfl
@[simp] theorem State.noteRead_amp (s : State) (w : Bool) :
    (s.noteRead w).amp = s.amp := by cases w <;> rfl
@[simp] theorem State.noteRead_pwm (s : State) (w : Bool) :
    (s.noteRead w).pwm = s.pwm := by cases w <;> rfl
@[simp] theorem State.noteRead_writes (s : State) (w : Bool) :
    (s.noteRead w).writes = s.writes := by cases w <;> rfl
@[simp] theorem State.noteRead_stream (s : State) (w : Bool) :
    (s.noteRead w).stream = s.stream := by cases w <;> rfl
@[simp] theorem State.noteRead_choices (s : State) (w : Bool) :
    (s.noteRead w).choices = s.choices := by cases w <;> rfl

/-! `State.noteZero`. -/

@[simp] theorem State.noteZero_cfg (s : State) (z : Bool) :
    (s.noteZero z).cfg = s.cfg := by cases z <;> rfl
@[simp] theorem State.noteZero_rom (s : State) (z : Bool) :
    (s.noteZero z).rom = s.rom := by cases z <;> rfl
@[simp] theorem State.noteZero_run (s : State) (z : Bool) :
    (s.noteZero z).run = s.run := by cases z <;> rfl
@[simp] theorem State.noteZero_ie (s : State) (z : Bool) :
    (s.noteZero z).ie = s.ie := by cases z <;> rfl
@[simp] theorem State.noteZero_tovf (s : State) (z : Bool) :
    (s.noteZero z).tovf = s.tovf := by cases z <;> rfl
@[simp] theorem State.noteZero_acc (s : State) (z : Bool) :
    (s.noteZero z).acc = s.acc := by cases z <;> rfl
@[simp] theorem State.noteZero_tidx (s : State) (z : Bool) :
    (s.noteZero z).tidx = s.tidx := by cases z <;> rfl
@[simp] theorem State.noteZero_suc (s : State) (z : Bool) :
    (s.noteZero z).suc = s.suc := by cases z <;> rfl
@[simp] theorem State.noteZero_slatch (s : State) (z : Bool) :
    (s.noteZero z).slatch = s.slatch := by cases z <;> rfl
@[simp] theorem State.noteZero_mph (s : State) (z : Bool) :
    (s.noteZero z).mph = s.mph := by cases z <;> rfl
@[simp] theorem State.noteZero_cur (s : State) (z : Bool) :
    (s.noteZero z).cur = s.cur := by cases z <;> rfl
@[simp] theorem State.noteZero_seen (s : State) (z : Bool) :
    (s.noteZero z).seen = s.seen := by cases z <;> rfl
@[simp] theorem State.noteZero_pat (s : State) (z : Bool) :
    (s.noteZero z).pat = s.pat := by cases z <;> rfl
@[simp] theorem State.noteZero_rng (s : State) (z : Bool) :
    (s.noteZero z).rng = s.rng := by cases z <;> rfl
@[simp] theorem State.noteZero_dctr (s : State) (z : Bool) :
    (s.noteZero z).dctr = s.dctr := by cases z <;> rfl
@[simp] theorem State.noteZero_amp (s : State) (z : Bool) :
    (s.noteZero z).amp = s.amp := by cases z <;> rfl
@[simp] theorem State.noteZero_pwm (s : State) (z : Bool) :
    (s.noteZero z).pwm = s.pwm := by cases z <;> rfl
@[simp] theorem State.noteZero_writes (s : State) (z : Bool) :
    (s.noteZero z).writes = s.writes := by cases z <;> rfl
@[simp] theorem State.noteZero_stream (s : State) (z : Bool) :
    (s.noteZero z).stream = s.stream := by cases z <;> rfl
@[simp] theorem State.noteZero_choices (s : State) (z : Bool) :
    (s.noteZero z).choices = s.choices := by cases z <;> rfl

/-! `State.writePwm`. -/

@[simp] theorem State.writePwm_cfg (s : State) (v : Byte) :
    (s.writePwm v).cfg = s.cfg := rfl
@[simp] theorem State.writePwm_rom (s : State) (v : Byte) :
    (s.writePwm v).rom = s.rom := rfl
@[simp] theorem State.writePwm_run (s : State) (v : Byte) :
    (s.writePwm v).run = s.run := rfl
@[simp] theorem State.writePwm_ie (s : State) (v : Byte) :
    (s.writePwm v).ie = s.ie := rfl
@[simp] theorem State.writePwm_tovf (s : State) (v : Byte) :
    (s.writePwm v).tovf = s.tovf := rfl
@[simp] theorem State.writePwm_acc (s : State) (v : Byte) :
    (s.writePwm v).acc = s.acc := rfl
@[simp] theorem State.writePwm_tidx (s : State) (v : Byte) :
    (s.writePwm v).tidx = s.tidx := rfl
@[simp] theorem State.writePwm_suc (s : State) (v : Byte) :
    (s.writePwm v).suc = s.suc := rfl
@[simp] theorem State.writePwm_slatch (s : State) (v : Byte) :
    (s.writePwm v).slatch = s.slatch := rfl
@[simp] theorem State.writePwm_mph (s : State) (v : Byte) :
    (s.writePwm v).mph = s.mph := rfl
@[simp] theorem State.writePwm_cur (s : State) (v : Byte) :
    (s.writePwm v).cur = s.cur := rfl
@[simp] theorem State.writePwm_seen (s : State) (v : Byte) :
    (s.writePwm v).seen = s.seen := rfl
@[simp] theorem State.writePwm_pat (s : State) (v : Byte) :
    (s.writePwm v).pat = s.pat := rfl
@[simp] theorem State.writePwm_rng (s : State) (v : Byte) :
    (s.writePwm v).rng = s.rng := rfl
@[simp] theorem State.writePwm_dctr (s : State) (v : Byte) :
    (s.writePwm v).dctr = s.dctr := rfl
@[simp] theorem State.writePwm_amp (s : State) (v : Byte) :
    (s.writePwm v).amp = s.amp := rfl
@[simp] theorem State.writePwm_pwm (s : State) (v : Byte) :
    (s.writePwm v).pwm = .put v := rfl
@[simp] theorem State.writePwm_faults (s : State) (v : Byte) :
    (s.writePwm v).faults = s.faults := rfl
@[simp] theorem State.writePwm_writes (s : State) (v : Byte) :
    (s.writePwm v).writes = s.writes ++ [v] := rfl
@[simp] theorem State.writePwm_stream (s : State) (v : Byte) :
    (s.writePwm v).stream = s.stream := rfl
@[simp] theorem State.writePwm_choices (s : State) (v : Byte) :
    (s.writePwm v).choices = s.choices := rfl

/-! `State.takeInterrupt`. -/

@[simp] theorem State.takeInterrupt_cfg (s : State) :
    (s.takeInterrupt).cfg = s.cfg := rfl
@[simp] theorem State.takeInterrupt_rom (s : State) :
    (s.takeInterrupt).rom = s.rom := rfl
@[simp] theorem State.takeInterrupt_run (s : State) :
    (s.takeInterrupt).run = s.run := rfl
@[simp] theorem State.takeInterrupt_ie (s : State) :
    (s.takeInterrupt).ie = s.ie := rfl
@[simp] theorem State.takeInterrupt_tovf (s : State) :
    (s.takeInterrupt).tovf = .put false := rfl
@[simp] theorem State.takeInterrupt_acc (s : State) :
    (s.takeInterrupt).acc = s.acc := rfl
@[simp] theorem State.takeInterrupt_tidx (s : State) :
    (s.takeInterrupt).tidx = s.tidx := rfl
@[simp] theorem State.takeInterrupt_suc (s : State) :
    (s.takeInterrupt).suc = s.suc := rfl
@[simp] theorem State.takeInterrupt_slatch (s : State) :
    (s.takeInterrupt).slatch = s.slatch := rfl
@[simp] theorem State.takeInterrupt_mph (s : State) :
    (s.takeInterrupt).mph = s.mph := rfl
@[simp] theorem State.takeInterrupt_cur (s : State) :
    (s.takeInterrupt).cur = s.cur := rfl
@[simp] theorem State.takeInterrupt_seen (s : State) :
    (s.takeInterrupt).seen = s.seen := rfl
@[simp] theorem State.takeInterrupt_pat (s : State) :
    (s.takeInterrupt).pat = s.pat := rfl
@[simp] theorem State.takeInterrupt_rng (s : State) :
    (s.takeInterrupt).rng = s.rng := rfl
@[simp] theorem State.takeInterrupt_dctr (s : State) :
    (s.takeInterrupt).dctr = s.dctr := rfl
@[simp] theorem State.takeInterrupt_amp (s : State) :
    (s.takeInterrupt).amp = s.amp := rfl
@[simp] theorem State.takeInterrupt_pwm (s : State) :
    (s.takeInterrupt).pwm = s.pwm := rfl
@[simp] theorem State.takeInterrupt_faults (s : State) :
    (s.takeInterrupt).faults = s.faults := rfl
@[simp] theorem State.takeInterrupt_writes (s : State) :
    (s.takeInterrupt).writes = s.writes := rfl
@[simp] theorem State.takeInterrupt_stream (s : State) :
    (s.takeInterrupt).stream = s.stream := rfl
@[simp] theorem State.takeInterrupt_choices (s : State) :
    (s.takeInterrupt).choices = s.choices := rfl

/-! `State.setPending`. -/

@[simp] theorem State.setPending_cfg (s : State) :
    (s.setPending).cfg = s.cfg := rfl
@[simp] theorem State.setPending_rom (s : State) :
    (s.setPending).rom = s.rom := rfl
@[simp] theorem State.setPending_run (s : State) :
    (s.setPending).run = s.run := rfl
@[simp] theorem State.setPending_ie (s : State) :
    (s.setPending).ie = s.ie := rfl
@[simp] theorem State.setPending_tovf (s : State) :
    (s.setPending).tovf = .put true := rfl
@[simp] theorem State.setPending_acc (s : State) :
    (s.setPending).acc = s.acc := rfl
@[simp] theorem State.setPending_tidx (s : State) :
    (s.setPending).tidx = s.tidx := rfl
@[simp] theorem State.setPending_suc (s : State) :
    (s.setPending).suc = s.suc := rfl
@[simp] theorem State.setPending_slatch (s : State) :
    (s.setPending).slatch = s.slatch := rfl
@[simp] theorem State.setPending_mph (s : State) :
    (s.setPending).mph = s.mph := rfl
@[simp] theorem State.setPending_cur (s : State) :
    (s.setPending).cur = s.cur := rfl
@[simp] theorem State.setPending_seen (s : State) :
    (s.setPending).seen = s.seen := rfl
@[simp] theorem State.setPending_pat (s : State) :
    (s.setPending).pat = s.pat := rfl
@[simp] theorem State.setPending_rng (s : State) :
    (s.setPending).rng = s.rng := rfl
@[simp] theorem State.setPending_dctr (s : State) :
    (s.setPending).dctr = s.dctr := rfl
@[simp] theorem State.setPending_amp (s : State) :
    (s.setPending).amp = s.amp := rfl
@[simp] theorem State.setPending_pwm (s : State) :
    (s.setPending).pwm = s.pwm := rfl
@[simp] theorem State.setPending_faults (s : State) :
    (s.setPending).faults = s.faults := rfl
@[simp] theorem State.setPending_writes (s : State) :
    (s.setPending).writes = s.writes := rfl
@[simp] theorem State.setPending_stream (s : State) :
    (s.setPending).stream = s.stream := rfl
@[simp] theorem State.setPending_choices (s : State) :
    (s.setPending).choices = s.choices := rfl

/-! `State.enterPlaying`. -/

@[simp] theorem State.enterPlaying_cfg (s : State) :
    (s.enterPlaying).cfg = s.cfg := rfl
@[simp] theorem State.enterPlaying_rom (s : State) :
    (s.enterPlaying).rom = s.rom := rfl
@[simp] theorem State.enterPlaying_run (s : State) :
    (s.enterPlaying).run = true := rfl
@[simp] theorem State.enterPlaying_ie (s : State) :
    (s.enterPlaying).ie = true := rfl
@[simp] theorem State.enterPlaying_tovf (s : State) :
    (s.enterPlaying).tovf = s.tovf := rfl
@[simp] theorem State.enterPlaying_acc (s : State) :
    (s.enterPlaying).acc = s.acc := rfl
@[simp] theorem State.enterPlaying_tidx (s : State) :
    (s.enterPlaying).tidx = s.tidx := rfl
@[simp] theorem State.enterPlaying_suc (s : State) :
    (s.enterPlaying).suc = s.suc := rfl
@[simp] theorem State.enterPlaying_slatch (s : State) :
    (s.enterPlaying).slatch = s.slatch := rfl
@[simp] theorem State.enterPlaying_mph (s : State) :
    (s.enterPlaying).mph = s.mph := rfl
@[simp] theorem State.enterPlaying_cur (s : State) :
    (s.enterPlaying).cur = s.cur := rfl
@[simp] theorem State.enterPlaying_seen (s : State) :
    (s.enterPlaying).seen = s.seen := rfl
@[simp] theorem State.enterPlaying_pat (s : State) :
    (s.enterPlaying).pat = s.pat := rfl
@[simp] theorem State.enterPlaying_rng (s : State) :
    (s.enterPlaying).rng = s.rng := rfl
@[simp] theorem State.enterPlaying_dctr (s : State) :
    (s.enterPlaying).dctr = s.dctr := rfl
@[simp] theorem State.enterPlaying_amp (s : State) :
    (s.enterPlaying).amp = s.amp := rfl
@[simp] theorem State.enterPlaying_pwm (s : State) :
    (s.enterPlaying).pwm = s.pwm := rfl
@[simp] theorem State.enterPlaying_faults (s : State) :
    (s.enterPlaying).faults = s.faults := rfl
@[simp] theorem State.enterPlaying_writes (s : State) :
    (s.enterPlaying).writes = s.writes := rfl
@[simp] theorem State.enterPlaying_stream (s : State) :
    (s.enterPlaying).stream = s.stream := rfl
@[simp] theorem State.enterPlaying_choices (s : State) :
    (s.enterPlaying).choices = s.choices := rfl

/-! `State.enterIdle`. -/

@[simp] theorem State.enterIdle_cfg (s : State) :
    (s.enterIdle).cfg = s.cfg := rfl
@[simp] theorem State.enterIdle_rom (s : State) :
    (s.enterIdle).rom = s.rom := rfl
@[simp] theorem State.enterIdle_run (s : State) :
    (s.enterIdle).run = false := rfl
@[simp] theorem State.enterIdle_ie (s : State) :
    (s.enterIdle).ie = false := rfl
@[simp] theorem State.enterIdle_tovf (s : State) :
    (s.enterIdle).tovf = s.tovf := rfl
@[simp] theorem State.enterIdle_acc (s : State) :
    (s.enterIdle).acc = s.acc := rfl
@[simp] theorem State.enterIdle_tidx (s : State) :
    (s.enterIdle).tidx = s.tidx := rfl
@[simp] theorem State.enterIdle_suc (s : State) :
    (s.enterIdle).suc = s.suc := rfl
@[simp] theorem State.enterIdle_slatch (s : State) :
    (s.enterIdle).slatch = s.slatch := rfl
@[simp] theorem State.enterIdle_mph (s : State) :
    (s.enterIdle).mph = s.mph := rfl
@[simp] theorem State.enterIdle_cur (s : State) :
    (s.enterIdle).cur = s.cur := rfl
@[simp] theorem State.enterIdle_seen (s : State) :
    (s.enterIdle).seen = s.seen := rfl
@[simp] theorem State.enterIdle_pat (s : State) :
    (s.enterIdle).pat = s.pat := rfl
@[simp] theorem State.enterIdle_rng (s : State) :
    (s.enterIdle).rng = s.rng := rfl
@[simp] theorem State.enterIdle_dctr (s : State) :
    (s.enterIdle).dctr = s.dctr := rfl
@[simp] theorem State.enterIdle_amp (s : State) :
    (s.enterIdle).amp = s.amp := rfl
@[simp] theorem State.enterIdle_pwm (s : State) :
    (s.enterIdle).pwm = s.pwm := rfl
@[simp] theorem State.enterIdle_faults (s : State) :
    (s.enterIdle).faults = s.faults := rfl
@[simp] theorem State.enterIdle_writes (s : State) :
    (s.enterIdle).writes = s.writes := rfl
@[simp] theorem State.enterIdle_stream (s : State) :
    (s.enterIdle).stream = s.stream := rfl
@[simp] theorem State.enterIdle_choices (s : State) :
    (s.enterIdle).choices = s.choices := rfl

/-! `State.resetSequencer`. -/

@[simp] theorem State.resetSequencer_cfg (s : State) :
    (s.resetSequencer).cfg = s.cfg := rfl
@[simp] theorem State.resetSequencer_rom (s : State) :
    (s.resetSequencer).rom = s.rom := rfl
@[simp] theorem State.resetSequencer_run (s : State) :
    (s.resetSequencer).run = s.run := rfl
@[simp] theorem State.resetSequencer_ie (s : State) :
    (s.resetSequencer).ie = s.ie := rfl
@[simp] theorem State.resetSequencer_tovf (s : State) :
    (s.resetSequencer).tovf = .put false := rfl
@[simp] theorem State.resetSequencer_acc (s : State) :
    (s.resetSequencer).acc = .put 0 := rfl
@[simp] theorem State.resetSequencer_tidx (s : State) :
    (s.resetSequencer).tidx = s.tidx := rfl
@[simp] theorem State.resetSequencer_suc (s : State) :
    (s.resetSequencer).suc = .put 0 := rfl
@[simp] theorem State.resetSequencer_slatch (s : State) :
    (s.resetSequencer).slatch = s.slatch := rfl
@[simp] theorem State.resetSequencer_mph (s : State) :
    (s.resetSequencer).mph = s.mph := rfl
@[simp] theorem State.resetSequencer_cur (s : State) :
    (s.resetSequencer).cur = .put 0 := rfl
@[simp] theorem State.resetSequencer_seen (s : State) :
    (s.resetSequencer).seen = .put 0 := rfl
@[simp] theorem State.resetSequencer_pat (s : State) :
    (s.resetSequencer).pat = s.pat := rfl
@[simp] theorem State.resetSequencer_rng (s : State) :
    (s.resetSequencer).rng = .put s.cfg.seed := rfl
@[simp] theorem State.resetSequencer_dctr (s : State) :
    (s.resetSequencer).dctr = .put 0 := rfl
@[simp] theorem State.resetSequencer_amp (s : State) :
    (s.resetSequencer).amp = .put s.cfg.quiescent := rfl
@[simp] theorem State.resetSequencer_pwm (s : State) :
    (s.resetSequencer).pwm = s.pwm := rfl
@[simp] theorem State.resetSequencer_faults (s : State) :
    (s.resetSequencer).faults = s.faults := rfl
@[simp] theorem State.resetSequencer_writes (s : State) :
    (s.resetSequencer).writes = s.writes := rfl
@[simp] theorem State.resetSequencer_stream (s : State) :
    (s.resetSequencer).stream = s.stream := rfl
@[simp] theorem State.resetSequencer_choices (s : State) :
    (s.resetSequencer).choices = s.choices := rfl

/-! `State.silence`. -/

@[simp] theorem State.silence_cfg (s : State) :
    (s.silence).cfg = s.cfg := rfl
@[simp] theorem State.silence_rom (s : State) :
    (s.silence).rom = s.rom := rfl
@[simp] theorem State.silence_run (s : State) :
    (s.silence).run = s.run := rfl
@[simp] theorem State.silence_ie (s : State) :
    (s.silence).ie = s.ie := rfl
@[simp] theorem State.silence_tovf (s : State) :
    (s.silence).tovf = s.tovf := rfl
@[simp] theorem State.silence_acc (s : State) :
    (s.silence).acc = s.acc := rfl
@[simp] theorem State.silence_tidx (s : State) :
    (s.silence).tidx = s.tidx := rfl
@[simp] theorem State.silence_suc (s : State) :
    (s.silence).suc = s.suc := rfl
@[simp] theorem State.silence_slatch (s : State) :
    (s.silence).slatch = s.slatch := rfl
@[simp] theorem State.silence_mph (s : State) :
    (s.silence).mph = s.mph := rfl
@[simp] theorem State.silence_cur (s : State) :
    (s.silence).cur = s.cur := rfl
@[simp] theorem State.silence_seen (s : State) :
    (s.silence).seen = s.seen := rfl
@[simp] theorem State.silence_pat (s : State) :
    (s.silence).pat = s.pat := rfl
@[simp] theorem State.silence_rng (s : State) :
    (s.silence).rng = s.rng := rfl
@[simp] theorem State.silence_dctr (s : State) :
    (s.silence).dctr = .put 0 := rfl
@[simp] theorem State.silence_amp (s : State) :
    (s.silence).amp = .put s.cfg.quiescent := rfl
@[simp] theorem State.silence_pwm (s : State) :
    (s.silence).pwm = .put s.cfg.quiescent := rfl
@[simp] theorem State.silence_faults (s : State) :
    (s.silence).faults = s.faults := rfl
@[simp] theorem State.silence_writes (s : State) :
    (s.silence).writes = s.writes ++ [s.cfg.quiescent] := rfl
@[simp] theorem State.silence_stream (s : State) :
    (s.silence).stream = s.stream := rfl
@[simp] theorem State.silence_choices (s : State) :
    (s.silence).choices = s.choices := rfl

/-- A read of an unwritten register adds UNINIT_READ to FAULT, and nothing else changes. -/
theorem State.noteRead_faults (s : State) (w : Bool) :
    (s.noteRead w).faults = if w then s.faults else s.faults.insert .uninitRead := by cases w <;> rfl

/-- ADVANCE of 0 adds LFSR_ZERO to FAULT, and nothing else changes. -/
theorem State.noteZero_faults (s : State) (z : Bool) :
    (s.noteZero z).faults = if z then s.faults.insert .lfsrZero else s.faults := by cases z <;> rfl

/-- FAULT only grows (60_exceptions.md R150). -/
theorem FaultSet.insert_keeps (f : FaultSet) (n : FaultName) :
    (f.lfsrZero = true → (f.insert n).lfsrZero = true) ∧ (f.uninitRead = true → (f.insert n).uninitRead = true) := by
  cases n <;> simp [FaultSet.insert]

end Sys2Proof.Machine
end

