-- ==== Sys2Proof/Laws/Control.lean ====
section
/-! SUPPORT. Every way the control commands answer a next state. -/

namespace Sys2Proof.Machine

open Sys2Proof

/-- START (44_control_commands.md R141, R142). -/
theorem execStart_next {s t : State} (h : execStart s = .next t) :
    s.mph = .ready ∧ ((s.run = true ∧ t = s) ∨ (s.run = false ∧ t = s.resetSequencer.enterPlaying)) := by
  unfold execStart at h
  split at h
  · cases h
  · rename_i hm
    cases h
    cases hr : s.run <;> simp [hm]

/-- STOP (44_control_commands.md R143, R144). -/
theorem execStop_next {s t : State} (h : execStop s = .next t) :
    s.mph = .ready ∧ ((s.run = true ∧ t = s.enterIdle.silence) ∨ (s.run = false ∧ t = s)) := by
  unfold execStop at h
  split at h
  · cases h
  · rename_i hm
    cases h
    cases hr : s.run <;> simp [hm]

/-- PATTERN_LATCH (44_control_commands.md R145). -/
theorem execPatternLatch_next {n : BitVec 4} {s t : State} (h : execPatternLatch n s = .next t) :
    s.mph = .ready ∧ t = { s with pat := BitVec.ofNat 4 (min n.toNat (s.cfg.npat - 1)) } := by
  unfold execPatternLatch at h
  split at h
  · cases h
  · cases h
    exact ⟨‹_›, rfl⟩

end Sys2Proof.Machine
end

