-- ==== Sys2Proof/Laws/Memory.lean ====
section
/-! SUPPORT. The memory operations: what a read gives after a placing, and that every operation keeps the canonical form. -/

namespace Sys2Proof.Machine

open Sys2Proof

@[simp] theorem Memory.read_nil (a : Nat) : Memory.read [] a = Memory.unlisted := rfl

theorem Memory.nil_wf : Memory.Wf [] := ⟨List.Pairwise.nil, fun _ h => nomatch h⟩

theorem Memory.mem_erase {m : Memory} {a : Nat} {c : Host.Cell} (h : c ∈ m.erase a) : c ∈ m ∧ c.1 ≠ a := by
  induction m with
  | nil => simp [Memory.erase] at h
  | cons d rest ih =>
    obtain ⟨b, v⟩ := d
    rw [Memory.erase] at h
    split at h
    · exact ⟨List.mem_cons_of_mem _ (ih h).1, (ih h).2⟩
    · rename_i hb
      rcases List.mem_cons.1 h with rfl | h'
      · exact ⟨List.mem_cons_self, hb⟩
      · exact ⟨List.mem_cons_of_mem _ (ih h').1, (ih h').2⟩

theorem Memory.mem_insert {m : Memory} {a : Nat} {v : Byte} {c : Host.Cell} (h : c ∈ m.insert a v) :
    c = (a, v) ∨ c ∈ m := by
  induction m with
  | nil => simpa [Memory.insert] using h
  | cons d rest ih =>
    obtain ⟨b, w⟩ := d
    rw [Memory.insert] at h
    split at h
    · simpa using h
    · rcases List.mem_cons.1 h with rfl | h'
      · exact .inr List.mem_cons_self
      · exact (ih h').imp_right (List.mem_cons_of_mem _)

theorem Memory.erase_wf {m : Memory} (a : Nat) (h : m.Wf) : (m.erase a).Wf := by
  induction m with
  | nil => exact h
  | cons d rest ih =>
    obtain ⟨b, v⟩ := d
    have hp := List.pairwise_cons.1 h.1
    have hr := ih ⟨hp.2, fun c hc => h.2 c (List.mem_cons_of_mem _ hc)⟩
    rw [Memory.erase]
    split
    · exact hr
    · refine ⟨List.pairwise_cons.2 ⟨fun c hc => hp.1 c (mem_erase hc).1, hr.1⟩, fun c hc => ?_⟩
      rcases List.mem_cons.1 hc with rfl | hc
      · exact h.2 _ List.mem_cons_self
      · exact hr.2 c hc

theorem Memory.insert_wf {m : Memory} {a : Nat} {v : Byte} (h : m.Wf) (ha : ∀ c ∈ m, c.1 ≠ a)
    (hv : v ≠ Memory.unlisted) : (m.insert a v).Wf := by
  induction m with
  | nil =>
    refine ⟨List.pairwise_singleton _ _, fun c hc => ?_⟩
    obtain rfl := List.mem_singleton.1 hc
    exact hv
  | cons d rest ih =>
    obtain ⟨b, w⟩ := d
    have hp := List.pairwise_cons.1 h.1
    rw [Memory.insert]
    split
    · rename_i hab
      refine ⟨List.pairwise_cons.2 ⟨fun c hc => ?_, h.1⟩, fun c hc => ?_⟩
      · rcases List.mem_cons.1 hc with rfl | hc
        · exact hab
        · exact Nat.lt_trans hab (hp.1 c hc)
      · rcases List.mem_cons.1 hc with rfl | hc
        · exact hv
        · exact h.2 c hc
    · rename_i hab
      have hr := ih ⟨hp.2, fun c hc => h.2 c (List.mem_cons_of_mem _ hc)⟩
        (fun c hc => ha c (List.mem_cons_of_mem _ hc))
      have hba : b ≠ a := ha (b, w) List.mem_cons_self
      refine ⟨List.pairwise_cons.2 ⟨fun c hc => ?_, hr.1⟩, fun c hc => ?_⟩
      · rcases mem_insert hc with rfl | hc
        · show b < a
          omega
        · exact hp.1 c hc
      · rcases List.mem_cons.1 hc with rfl | hc
        · exact h.2 _ List.mem_cons_self
        · exact hr.2 c hc

/-- Placing one byte keeps the canonical form. -/
theorem Memory.place_wf {m : Memory} (a : Nat) (v : Byte) (h : m.Wf) : (m.place a v).Wf := by
  rw [Memory.place]
  split
  · exact erase_wf a h
  · exact insert_wf (erase_wf a h) (fun c hc => (mem_erase hc).2) ‹_›

/-- Placing an image keeps the canonical form. -/
theorem Memory.placeAll_wf {m : Memory} (a : Nat) (bytes : List Byte) (h : m.Wf) : (m.placeAll a bytes).Wf := by
  induction bytes generalizing m a with
  | nil => exact h
  | cons v rest ih => exact ih (a + 1) (place_wf a v h)

/-- Cutting the memory keeps the canonical form. -/
theorem Memory.below_wf {m : Memory} (n : Nat) (h : m.Wf) : (m.below n).Wf :=
  ⟨h.1.filter _, fun c hc => h.2 c (List.mem_of_mem_filter hc)⟩

theorem Memory.read_erase (m : Memory) (a b : Nat) :
    (m.erase a).read b = if b = a then Memory.unlisted else m.read b := by
  induction m with
  | nil => simp [Memory.erase]
  | cons d rest ih =>
    obtain ⟨x, v⟩ := d
    by_cases hx : x = a
    · subst hx
      rw [Memory.erase, if_pos rfl, ih, Memory.read]
      split
      · rfl
      · rename_i hb
        rw [if_neg (fun e => hb e.symm)]
    · rw [Memory.erase, if_neg hx, Memory.read, Memory.read]
      split
      · rename_i hxb
        rw [if_neg (fun e => hx (hxb.trans e))]
      · exact ih

theorem Memory.read_insert {m : Memory} {a : Nat} {v : Byte} (ha : ∀ c ∈ m, c.1 ≠ a) (b : Nat) :
    (m.insert a v).read b = if b = a then v else m.read b := by
  induction m with
  | nil =>
    simp only [Memory.insert, Memory.read]
    exact if_congr eq_comm rfl rfl
  | cons d rest ih =>
    obtain ⟨x, w⟩ := d
    have hx : x ≠ a := ha (x, w) List.mem_cons_self
    rw [Memory.insert]
    split
    · rw [Memory.read]
      exact if_congr eq_comm rfl rfl
    · rw [Memory.read, Memory.read, ih (fun c hc => ha c (List.mem_cons_of_mem _ hc))]
      split
      · rename_i hxb
        rw [if_neg (fun e => hx (hxb.trans e))]
      · rfl

/-- A read after a placing gives the byte placed there, and every other address reads as before. -/
theorem Memory.read_place (m : Memory) (a : Nat) (v : Byte) (b : Nat) :
    (m.place a v).read b = if b = a then v else m.read b := by
  rw [Memory.place]
  split
  · rename_i hv
    rw [read_erase, hv]
  · rw [read_insert (fun c hc => (mem_erase hc).2), read_erase]
    split <;> rfl

/-- A loaded image reads back: its byte `k` stands at address `a + k` (20_memory.md R51). -/
theorem Memory.read_placeAll (m : Memory) (a : Nat) (bytes : List Byte) (b : Nat) :
    (m.placeAll a bytes).read b = if a ≤ b ∧ b < a + bytes.length then bytes.getD (b - a) 0 else m.read b := by
  induction bytes generalizing m a with
  | nil =>
    rw [Memory.placeAll, if_neg]
    simp
  | cons v rest ih =>
    rw [Memory.placeAll, ih]
    simp only [List.length_cons]
    by_cases h1 : a + 1 ≤ b ∧ b < a + 1 + rest.length
    · have h3 : b - a = (b - (a + 1)) + 1 := by omega
      rw [if_pos h1, if_pos (by omega), h3, List.getD_cons_succ]
    · rw [if_neg h1, read_place]
      by_cases h4 : b = a
      · rw [if_pos h4, if_pos (by omega), h4, Nat.sub_self, List.getD_cons_zero]
      · rw [if_neg h4, if_neg (by omega)]

end Sys2Proof.Machine
end

