-- ==== Sys2Proof/Laws/Ops.lean ====
section
/-! SUPPORT. What each shared operation does, said once: the values it writes, the parts it leaves, and for the operations
that can stop, every way they answer a next state. -/

namespace Sys2Proof.Machine

open Sys2Proof

/-! Reads of the ROM. -/

/-- A ROM read answers exactly at an address of the ROM (20_memory.md R51). -/
theorem State.romByte_eq_some {s : State} {a : Nat} {b : Byte} :
    s.romByte a = some b ↔ a < s.cfg.romSize ∧ s.rom.read a = b := by
  unfold State.romByte
  split <;> simp_all

/-! The noise emission and the delay gate. -/

/-- The emission writes RNG, PWM and, on an unwritten or zero RNG, FAULT (43_audio_output.md R127, 40_lfsr.md R94). -/
@[simp] theorem State.emitNoise_rng (s : State) (p : StepParams) :
    (s.emitNoise p).rng = .put (advance s.cfg.lowresForm s.rng.val p.hi) := by
  simp [State.emitNoise]
@[simp] theorem State.emitNoise_pwm (s : State) (p : StepParams) :
    (s.emitNoise p).pwm = .put (ampl (advance s.cfg.lowresForm s.rng.val p.hi) p.mask p.off) := by
  simp [State.emitNoise]
@[simp] theorem State.emitNoise_writes (s : State) (p : StepParams) :
    (s.emitNoise p).writes = s.writes ++ [ampl (advance s.cfg.lowresForm s.rng.val p.hi) p.mask p.off] := by
  simp [State.emitNoise]
theorem State.emitNoise_faults (s : State) (p : StepParams) :
    (s.emitNoise p).faults =
      (let f := if s.rng.written then s.faults else s.faults.insert .uninitRead
       if s.rng.val == 0#16 then f.insert .lfsrZero else f) := by
  simp [State.emitNoise, State.noteRead_faults, State.noteZero_faults]
@[simp] theorem State.emitNoise_cfg (s : State) (p : StepParams) :
    (s.emitNoise p).cfg = s.cfg := by
  simp [State.emitNoise]
@[simp] theorem State.emitNoise_rom (s : State) (p : StepParams) :
    (s.emitNoise p).rom = s.rom := by
  simp [State.emitNoise]
@[simp] theorem State.emitNoise_run (s : State) (p : StepParams) :
    (s.emitNoise p).run = s.run := by
  simp [State.emitNoise]
@[simp] theorem State.emitNoise_ie (s : State) (p : StepParams) :
    (s.emitNoise p).ie = s.ie := by
  simp [State.emitNoise]
@[simp] theorem State.emitNoise_tovf (s : State) (p : StepParams) :
    (s.emitNoise p).tovf = s.tovf := by
  simp [State.emitNoise]
@[simp] theorem State.emitNoise_acc (s : State) (p : StepParams) :
    (s.emitNoise p).acc = s.acc := by
  simp [State.emitNoise]
@[simp] theorem State.emitNoise_tidx (s : State) (p : StepParams) :
    (s.emitNoise p).tidx = s.tidx := by
  simp [State.emitNoise]
@[simp] theorem State.emitNoise_suc (s : State) (p : StepParams) :
    (s.emitNoise p).suc = s.suc := by
  simp [State.emitNoise]
@[simp] theorem State.emitNoise_slatch (s : State) (p : StepParams) :
    (s.emitNoise p).slatch = s.slatch := by
  simp [State.emitNoise]
@[simp] theorem State.emitNoise_mph (s : State) (p : StepParams) :
    (s.emitNoise p).mph = s.mph := by
  simp [State.emitNoise]
@[simp] theorem State.emitNoise_cur (s : State) (p : StepParams) :
    (s.emitNoise p).cur = s.cur := by
  simp [State.emitNoise]
@[simp] theorem State.emitNoise_seen (s : State) (p : StepParams) :
    (s.emitNoise p).seen = s.seen := by
  simp [State.emitNoise]
@[simp] theorem State.emitNoise_pat (s : State) (p : StepParams) :
    (s.emitNoise p).pat = s.pat := by
  simp [State.emitNoise]
@[simp] theorem State.emitNoise_dctr (s : State) (p : StepParams) :
    (s.emitNoise p).dctr = s.dctr := by
  simp [State.emitNoise]
@[simp] theorem State.emitNoise_amp (s : State) (p : StepParams) :
    (s.emitNoise p).amp = s.amp := by
  simp [State.emitNoise]
@[simp] theorem State.emitNoise_stream (s : State) (p : StepParams) :
    (s.emitNoise p).stream = s.stream := by
  simp [State.emitNoise]
@[simp] theorem State.emitNoise_choices (s : State) (p : StepParams) :
    (s.emitNoise p).choices = s.choices := by
  simp [State.emitNoise]

/-- The gate fires: DCTR is cleared and a sample emitted (43_audio_output.md R126). -/
theorem State.noiseStage_fires {s : State} {p : StepParams} (h : p.dly ≤ s.dctr.val) :
    s.noiseStage p = State.emitNoise { s.noteRead s.dctr.written with dctr := .put 0 } p := by
  unfold State.noiseStage
  simp [h]

/-- The gate does not fire: DCTR counts (43_audio_output.md R128). -/
theorem State.noiseStage_holds {s : State} {p : StepParams} (h : ¬ p.dly ≤ s.dctr.val) :
    s.noiseStage p = { s.noteRead s.dctr.written with dctr := .put (s.dctr.val + 1) } := by
  unfold State.noiseStage
  simp only [State.noteRead_dctr, if_neg h]

@[simp] theorem State.noiseStage_cfg (s : State) (p : StepParams) :
    (s.noiseStage p).cfg = s.cfg := by
  by_cases h : p.dly ≤ s.dctr.val
  · simp [State.noiseStage_fires h]
  · simp [State.noiseStage_holds h]
@[simp] theorem State.noiseStage_rom (s : State) (p : StepParams) :
    (s.noiseStage p).rom = s.rom := by
  by_cases h : p.dly ≤ s.dctr.val
  · simp [State.noiseStage_fires h]
  · simp [State.noiseStage_holds h]
@[simp] theorem State.noiseStage_run (s : State) (p : StepParams) :
    (s.noiseStage p).run = s.run := by
  by_cases h : p.dly ≤ s.dctr.val
  · simp [State.noiseStage_fires h]
  · simp [State.noiseStage_holds h]
@[simp] theorem State.noiseStage_ie (s : State) (p : StepParams) :
    (s.noiseStage p).ie = s.ie := by
  by_cases h : p.dly ≤ s.dctr.val
  · simp [State.noiseStage_fires h]
  · simp [State.noiseStage_holds h]
@[simp] theorem State.noiseStage_tovf (s : State) (p : StepParams) :
    (s.noiseStage p).tovf = s.tovf := by
  by_cases h : p.dly ≤ s.dctr.val
  · simp [State.noiseStage_fires h]
  · simp [State.noiseStage_holds h]
@[simp] theorem State.noiseStage_acc (s : State) (p : StepParams) :
    (s.noiseStage p).acc = s.acc := by
  by_cases h : p.dly ≤ s.dctr.val
  · simp [State.noiseStage_fires h]
  · simp [State.noiseStage_holds h]
@[simp] theorem State.noiseStage_tidx (s : State) (p : StepParams) :
    (s.noiseStage p).tidx = s.tidx := by
  by_cases h : p.dly ≤ s.dctr.val
  · simp [State.noiseStage_fires h]
  · simp [State.noiseStage_holds h]
@[simp] theorem State.noiseStage_suc (s : State) (p : StepParams) :
    (s.noiseStage p).suc = s.suc := by
  by_cases h : p.dly ≤ s.dctr.val
  · simp [State.noiseStage_fires h]
  · simp [State.noiseStage_holds h]
@[simp] theorem State.noiseStage_slatch (s : State) (p : StepParams) :
    (s.noiseStage p).slatch = s.slatch := by
  by_cases h : p.dly ≤ s.dctr.val
  · simp [State.noiseStage_fires h]
  · simp [State.noiseStage_holds h]
@[simp] theorem State.noiseStage_mph (s : State) (p : StepParams) :
    (s.noiseStage p).mph = s.mph := by
  by_cases h : p.dly ≤ s.dctr.val
  · simp [State.noiseStage_fires h]
  · simp [State.noiseStage_holds h]
@[simp] theorem State.noiseStage_cur (s : State) (p : StepParams) :
    (s.noiseStage p).cur = s.cur := by
  by_cases h : p.dly ≤ s.dctr.val
  · simp [State.noiseStage_fires h]
  · simp [State.noiseStage_holds h]
@[simp] theorem State.noiseStage_seen (s : State) (p : StepParams) :
    (s.noiseStage p).seen = s.seen := by
  by_cases h : p.dly ≤ s.dctr.val
  · simp [State.noiseStage_fires h]
  · simp [State.noiseStage_holds h]
@[simp] theorem State.noiseStage_pat (s : State) (p : StepParams) :
    (s.noiseStage p).pat = s.pat := by
  by_cases h : p.dly ≤ s.dctr.val
  · simp [State.noiseStage_fires h]
  · simp [State.noiseStage_holds h]
@[simp] theorem State.noiseStage_amp (s : State) (p : StepParams) :
    (s.noiseStage p).amp = s.amp := by
  by_cases h : p.dly ≤ s.dctr.val
  · simp [State.noiseStage_fires h]
  · simp [State.noiseStage_holds h]
@[simp] theorem State.noiseStage_stream (s : State) (p : StepParams) :
    (s.noiseStage p).stream = s.stream := by
  by_cases h : p.dly ≤ s.dctr.val
  · simp [State.noiseStage_fires h]
  · simp [State.noiseStage_holds h]
@[simp] theorem State.noiseStage_choices (s : State) (p : StepParams) :
    (s.noiseStage p).choices = s.choices := by
  by_cases h : p.dly ≤ s.dctr.val
  · simp [State.noiseStage_fires h]
  · simp [State.noiseStage_holds h]

/-! The DPCM integrator. -/

/-- The integrator writes AMP and PWM (43_audio_output.md R129). -/
@[simp] theorem State.dpcmStage_amp (s : State) (u : Bool) :
    (s.dpcmStage u).amp = .put (s.amp.val + dpcmDeltaOf s.cfg u) := by
  simp [State.dpcmStage]
@[simp] theorem State.dpcmStage_pwm (s : State) (u : Bool) :
    (s.dpcmStage u).pwm = .put (s.amp.val + dpcmDeltaOf s.cfg u) := by
  simp [State.dpcmStage]
@[simp] theorem State.dpcmStage_writes (s : State) (u : Bool) :
    (s.dpcmStage u).writes = s.writes ++ [s.amp.val + dpcmDeltaOf s.cfg u] := by
  simp [State.dpcmStage]
theorem State.dpcmStage_faults (s : State) (u : Bool) :
    (s.dpcmStage u).faults = if s.amp.written then s.faults else s.faults.insert .uninitRead := by
  simp [State.dpcmStage, State.noteRead_faults]
@[simp] theorem State.dpcmStage_cfg (s : State) (u : Bool) :
    (s.dpcmStage u).cfg = s.cfg := by
  simp [State.dpcmStage]
@[simp] theorem State.dpcmStage_rom (s : State) (u : Bool) :
    (s.dpcmStage u).rom = s.rom := by
  simp [State.dpcmStage]
@[simp] theorem State.dpcmStage_run (s : State) (u : Bool) :
    (s.dpcmStage u).run = s.run := by
  simp [State.dpcmStage]
@[simp] theorem State.dpcmStage_ie (s : State) (u : Bool) :
    (s.dpcmStage u).ie = s.ie := by
  simp [State.dpcmStage]
@[simp] theorem State.dpcmStage_tovf (s : State) (u : Bool) :
    (s.dpcmStage u).tovf = s.tovf := by
  simp [State.dpcmStage]
@[simp] theorem State.dpcmStage_acc (s : State) (u : Bool) :
    (s.dpcmStage u).acc = s.acc := by
  simp [State.dpcmStage]
@[simp] theorem State.dpcmStage_tidx (s : State) (u : Bool) :
    (s.dpcmStage u).tidx = s.tidx := by
  simp [State.dpcmStage]
@[simp] theorem State.dpcmStage_suc (s : State) (u : Bool) :
    (s.dpcmStage u).suc = s.suc := by
  simp [State.dpcmStage]
@[simp] theorem State.dpcmStage_slatch (s : State) (u : Bool) :
    (s.dpcmStage u).slatch = s.slatch := by
  simp [State.dpcmStage]
@[simp] theorem State.dpcmStage_mph (s : State) (u : Bool) :
    (s.dpcmStage u).mph = s.mph := by
  simp [State.dpcmStage]
@[simp] theorem State.dpcmStage_cur (s : State) (u : Bool) :
    (s.dpcmStage u).cur = s.cur := by
  simp [State.dpcmStage]
@[simp] theorem State.dpcmStage_seen (s : State) (u : Bool) :
    (s.dpcmStage u).seen = s.seen := by
  simp [State.dpcmStage]
@[simp] theorem State.dpcmStage_pat (s : State) (u : Bool) :
    (s.dpcmStage u).pat = s.pat := by
  simp [State.dpcmStage]
@[simp] theorem State.dpcmStage_rng (s : State) (u : Bool) :
    (s.dpcmStage u).rng = s.rng := by
  simp [State.dpcmStage]
@[simp] theorem State.dpcmStage_dctr (s : State) (u : Bool) :
    (s.dpcmStage u).dctr = s.dctr := by
  simp [State.dpcmStage]
@[simp] theorem State.dpcmStage_stream (s : State) (u : Bool) :
    (s.dpcmStage u).stream = s.stream := by
  simp [State.dpcmStage]
@[simp] theorem State.dpcmStage_choices (s : State) (u : Bool) :
    (s.dpcmStage u).choices = s.choices := by
  simp [State.dpcmStage]

/-! The handler. -/

/-- The threshold is reached: ACC is cleared and SUC steps (42_tempo_clock.md R112). -/
theorem State.tempoTick_reaches {s : State} {t : Word16} (h : t ≤ s.acc.val + 1) :
    s.tempoTick t = { (s.noteRead s.acc.written).noteRead s.suc.written with acc := .put 0, suc := .put (s.suc.val + 1) } := by
  unfold State.tempoTick
  simp only [State.noteRead_acc, State.noteRead_suc, if_pos h]

/-- The threshold is not reached: ACC counts (42_tempo_clock.md R112). -/
theorem State.tempoTick_counts {s : State} {t : Word16} (h : ¬ t ≤ s.acc.val + 1) :
    s.tempoTick t = { s.noteRead s.acc.written with acc := .put (s.acc.val + 1) } := by
  unfold State.tempoTick
  simp only [State.noteRead_acc, if_neg h]

@[simp] theorem State.tempoTick_cfg (s : State) (t : Word16) :
    (s.tempoTick t).cfg = s.cfg := by
  by_cases h : t ≤ s.acc.val + 1
  · simp [State.tempoTick_reaches h]
  · simp [State.tempoTick_counts h]
@[simp] theorem State.tempoTick_rom (s : State) (t : Word16) :
    (s.tempoTick t).rom = s.rom := by
  by_cases h : t ≤ s.acc.val + 1
  · simp [State.tempoTick_reaches h]
  · simp [State.tempoTick_counts h]
@[simp] theorem State.tempoTick_run (s : State) (t : Word16) :
    (s.tempoTick t).run = s.run := by
  by_cases h : t ≤ s.acc.val + 1
  · simp [State.tempoTick_reaches h]
  · simp [State.tempoTick_counts h]
@[simp] theorem State.tempoTick_ie (s : State) (t : Word16) :
    (s.tempoTick t).ie = s.ie := by
  by_cases h : t ≤ s.acc.val + 1
  · simp [State.tempoTick_reaches h]
  · simp [State.tempoTick_counts h]
@[simp] theorem State.tempoTick_tovf (s : State) (t : Word16) :
    (s.tempoTick t).tovf = s.tovf := by
  by_cases h : t ≤ s.acc.val + 1
  · simp [State.tempoTick_reaches h]
  · simp [State.tempoTick_counts h]
@[simp] theorem State.tempoTick_tidx (s : State) (t : Word16) :
    (s.tempoTick t).tidx = s.tidx := by
  by_cases h : t ≤ s.acc.val + 1
  · simp [State.tempoTick_reaches h]
  · simp [State.tempoTick_counts h]
@[simp] theorem State.tempoTick_slatch (s : State) (t : Word16) :
    (s.tempoTick t).slatch = s.slatch := by
  by_cases h : t ≤ s.acc.val + 1
  · simp [State.tempoTick_reaches h]
  · simp [State.tempoTick_counts h]
@[simp] theorem State.tempoTick_mph (s : State) (t : Word16) :
    (s.tempoTick t).mph = s.mph := by
  by_cases h : t ≤ s.acc.val + 1
  · simp [State.tempoTick_reaches h]
  · simp [State.tempoTick_counts h]
@[simp] theorem State.tempoTick_cur (s : State) (t : Word16) :
    (s.tempoTick t).cur = s.cur := by
  by_cases h : t ≤ s.acc.val + 1
  · simp [State.tempoTick_reaches h]
  · simp [State.tempoTick_counts h]
@[simp] theorem State.tempoTick_seen (s : State) (t : Word16) :
    (s.tempoTick t).seen = s.seen := by
  by_cases h : t ≤ s.acc.val + 1
  · simp [State.tempoTick_reaches h]
  · simp [State.tempoTick_counts h]
@[simp] theorem State.tempoTick_pat (s : State) (t : Word16) :
    (s.tempoTick t).pat = s.pat := by
  by_cases h : t ≤ s.acc.val + 1
  · simp [State.tempoTick_reaches h]
  · simp [State.tempoTick_counts h]
@[simp] theorem State.tempoTick_rng (s : State) (t : Word16) :
    (s.tempoTick t).rng = s.rng := by
  by_cases h : t ≤ s.acc.val + 1
  · simp [State.tempoTick_reaches h]
  · simp [State.tempoTick_counts h]
@[simp] theorem State.tempoTick_dctr (s : State) (t : Word16) :
    (s.tempoTick t).dctr = s.dctr := by
  by_cases h : t ≤ s.acc.val + 1
  · simp [State.tempoTick_reaches h]
  · simp [State.tempoTick_counts h]
@[simp] theorem State.tempoTick_amp (s : State) (t : Word16) :
    (s.tempoTick t).amp = s.amp := by
  by_cases h : t ≤ s.acc.val + 1
  · simp [State.tempoTick_reaches h]
  · simp [State.tempoTick_counts h]
@[simp] theorem State.tempoTick_pwm (s : State) (t : Word16) :
    (s.tempoTick t).pwm = s.pwm := by
  by_cases h : t ≤ s.acc.val + 1
  · simp [State.tempoTick_reaches h]
  · simp [State.tempoTick_counts h]
@[simp] theorem State.tempoTick_writes (s : State) (t : Word16) :
    (s.tempoTick t).writes = s.writes := by
  by_cases h : t ≤ s.acc.val + 1
  · simp [State.tempoTick_reaches h]
  · simp [State.tempoTick_counts h]
@[simp] theorem State.tempoTick_stream (s : State) (t : Word16) :
    (s.tempoTick t).stream = s.stream := by
  by_cases h : t ≤ s.acc.val + 1
  · simp [State.tempoTick_reaches h]
  · simp [State.tempoTick_counts h]
@[simp] theorem State.tempoTick_choices (s : State) (t : Word16) :
    (s.tempoTick t).choices = s.choices := by
  by_cases h : t ≤ s.acc.val + 1
  · simp [State.tempoTick_reaches h]
  · simp [State.tempoTick_counts h]

/-! The cursor. -/

/-- Rollover (43_audio_output.md R124). -/
theorem State.consumeStep_rolls {s : State} (h : s.cfg.len < s.slatch.val.toNat) :
    s.consumeStep = { s.noteRead s.seen.written with suc := .put 1, seen := .put 1, cur := .put 0 } := by
  unfold State.consumeStep
  simp only [State.noteRead_cfg, State.noteRead_slatch, if_pos h]

/-- No rollover: the sampled step is in force (43_audio_output.md R125). -/
theorem State.consumeStep_follows {s : State} (h : ¬ s.cfg.len < s.slatch.val.toNat) :
    s.consumeStep =
      { s.noteRead s.seen.written with seen := .put s.slatch.val, cur := .put (s.slatch.val - 1) } := by
  unfold State.consumeStep
  simp only [State.noteRead_cfg, State.noteRead_slatch, if_neg h]

@[simp] theorem State.consumeStep_cfg (s : State) : s.consumeStep.cfg = s.cfg := by
  by_cases h : s.cfg.len < s.slatch.val.toNat
  · simp [State.consumeStep_rolls h]
  · simp [State.consumeStep_follows h]
@[simp] theorem State.consumeStep_rom (s : State) : s.consumeStep.rom = s.rom := by
  by_cases h : s.cfg.len < s.slatch.val.toNat
  · simp [State.consumeStep_rolls h]
  · simp [State.consumeStep_follows h]
@[simp] theorem State.consumeStep_run (s : State) : s.consumeStep.run = s.run := by
  by_cases h : s.cfg.len < s.slatch.val.toNat
  · simp [State.consumeStep_rolls h]
  · simp [State.consumeStep_follows h]
@[simp] theorem State.consumeStep_ie (s : State) : s.consumeStep.ie = s.ie := by
  by_cases h : s.cfg.len < s.slatch.val.toNat
  · simp [State.consumeStep_rolls h]
  · simp [State.consumeStep_follows h]
@[simp] theorem State.consumeStep_tovf (s : State) : s.consumeStep.tovf = s.tovf := by
  by_cases h : s.cfg.len < s.slatch.val.toNat
  · simp [State.consumeStep_rolls h]
  · simp [State.consumeStep_follows h]
@[simp] theorem State.consumeStep_acc (s : State) : s.consumeStep.acc = s.acc := by
  by_cases h : s.cfg.len < s.slatch.val.toNat
  · simp [State.consumeStep_rolls h]
  · simp [State.consumeStep_follows h]
@[simp] theorem State.consumeStep_tidx (s : State) : s.consumeStep.tidx = s.tidx := by
  by_cases h : s.cfg.len < s.slatch.val.toNat
  · simp [State.consumeStep_rolls h]
  · simp [State.consumeStep_follows h]
@[simp] theorem State.consumeStep_slatch (s : State) : s.consumeStep.slatch = s.slatch := by
  by_cases h : s.cfg.len < s.slatch.val.toNat
  · simp [State.consumeStep_rolls h]
  · simp [State.consumeStep_follows h]
@[simp] theorem State.consumeStep_mph (s : State) : s.consumeStep.mph = s.mph := by
  by_cases h : s.cfg.len < s.slatch.val.toNat
  · simp [State.consumeStep_rolls h]
  · simp [State.consumeStep_follows h]
@[simp] theorem State.consumeStep_pat (s : State) : s.consumeStep.pat = s.pat := by
  by_cases h : s.cfg.len < s.slatch.val.toNat
  · simp [State.consumeStep_rolls h]
  · simp [State.consumeStep_follows h]
@[simp] theorem State.consumeStep_rng (s : State) : s.consumeStep.rng = s.rng := by
  by_cases h : s.cfg.len < s.slatch.val.toNat
  · simp [State.consumeStep_rolls h]
  · simp [State.consumeStep_follows h]
@[simp] theorem State.consumeStep_dctr (s : State) : s.consumeStep.dctr = s.dctr := by
  by_cases h : s.cfg.len < s.slatch.val.toNat
  · simp [State.consumeStep_rolls h]
  · simp [State.consumeStep_follows h]
@[simp] theorem State.consumeStep_amp (s : State) : s.consumeStep.amp = s.amp := by
  by_cases h : s.cfg.len < s.slatch.val.toNat
  · simp [State.consumeStep_rolls h]
  · simp [State.consumeStep_follows h]
@[simp] theorem State.consumeStep_pwm (s : State) : s.consumeStep.pwm = s.pwm := by
  by_cases h : s.cfg.len < s.slatch.val.toNat
  · simp [State.consumeStep_rolls h]
  · simp [State.consumeStep_follows h]
@[simp] theorem State.consumeStep_writes (s : State) : s.consumeStep.writes = s.writes := by
  by_cases h : s.cfg.len < s.slatch.val.toNat
  · simp [State.consumeStep_rolls h]
  · simp [State.consumeStep_follows h]
@[simp] theorem State.consumeStep_stream (s : State) : s.consumeStep.stream = s.stream := by
  by_cases h : s.cfg.len < s.slatch.val.toNat
  · simp [State.consumeStep_rolls h]
  · simp [State.consumeStep_follows h]
@[simp] theorem State.consumeStep_choices (s : State) : s.consumeStep.choices = s.choices := by
  by_cases h : s.cfg.len < s.slatch.val.toNat
  · simp [State.consumeStep_rolls h]
  · simp [State.consumeStep_follows h]

/-! Running the element in force. -/

/-- The variant guard answers a next state only in its variant. -/
theorem State.inVariant_eq_next {s t u : State} {v : Variant} :
    s.inVariant v t = .next u ↔ s.cfg.variant = v ∧ t = u := by
  unfold State.inVariant
  split <;> simp_all

/-- A fetched step byte runs the delay gate with what it decodes to (41_step_decoder.md R108). -/
theorem runStepByte_eq (b : Byte) (s : State) :
    runStepByte b s = s.inVariant .noise (s.noiseStage (decodeStep s.cfg b)) := by
  unfold runStepByte decodeStep
  cases h : resolutionField b <;> simp [execStepHi, execStepLo]

/-- A fetched step bit runs the integrator (43_audio_output.md R129). -/
theorem runStepBit_eq (u : Bool) (s : State) : runStepBit u s = s.inVariant .dpcm (s.dpcmStage u) := by
  cases u <;> rfl

/-- Every way the element in force answers a next state. -/
theorem State.runElement_next {s t : State} {new : Bool} (h : s.runElement new = .next t) :
    (s.cfg.variant = .noise ∧ ∃ b, s.stepByte = some b ∧ t = s.noiseStage (decodeStep s.cfg b)) ∨
    (s.cfg.variant = .dpcm ∧ new = true ∧ ∃ u, s.dpcmBit = some u ∧ t = s.dpcmStage u) ∨
    (s.cfg.variant = .dpcm ∧ new = false ∧ t = s) := by
  unfold State.runElement at h
  split at h
  · rename_i hv
    split at h
    · cases h
    · rename_i b hb
      rw [runStepByte_eq, State.inVariant_eq_next] at h
      exact .inl ⟨hv, b, hb, h.2.symm⟩
  · rename_i hv
    split at h
    · rename_i hn
      split at h
      · cases h
      · rename_i u hu
        rw [runStepBit_eq, State.inVariant_eq_next] at h
        exact .inr (.inl ⟨hv, hn, u, hu, h.2.symm⟩)
    · rename_i hn
      cases h
      exact .inr (.inr ⟨hv, by simpa using hn, rfl⟩)

/-- Every way LOOP_FINISH in Playing answers a next state. -/
theorem State.finishPlaying_next {s t : State} (h : s.finishPlaying = .next t) :
    (s.slatch.val = 0#8 ∧ t = s.noteRead s.slatch.written) ∨
    (s.slatch.val ≠ 0#8 ∧
      (s.noteRead s.slatch.written).consumeStep.runElement (s.noteRead s.slatch.written).isNewStep = .next t) := by
  unfold State.finishPlaying at h
  simp only [State.noteRead_slatch] at h
  split at h
  · cases h
    exact .inl ⟨‹_›, rfl⟩
  · exact .inr ⟨‹_›, h⟩

/-- Every way LOOP_FINISH answers a next state (43_audio_output.md R122). -/
theorem execLoopFinish_next {s t : State} (h : execLoopFinish s = .next t) :
    s.mph = .sampled ∧
    ((s.run = false ∧ t = State.writePwm { s with mph := .ready } s.cfg.quiescent) ∨
     (s.run = true ∧ State.finishPlaying { s with mph := .ready } = .next t)) := by
  unfold execLoopFinish at h
  split at h
  · cases h
  · rename_i hm
    split at h
    · exact ⟨hm, .inr ⟨‹_›, h⟩⟩
    · cases h
      exact ⟨hm, .inl ⟨by simpa using ‹¬ s.run = true›, rfl⟩⟩

/-- Every way LOOP_SAMPLE answers a next state (43_audio_output.md R121). -/
theorem execLoopSample_next {s t : State} (h : execLoopSample s = .next t) :
    s.mph = .ready ∧
    ((s.run = true ∧ t = { s.noteRead s.suc.written with slatch := .put s.suc.val, mph := .sampled }) ∨
     (s.run = false ∧ t = { s with mph := .sampled })) := by
  unfold execLoopSample at h
  split at h
  · cases h
  · rename_i hm
    split at h
    · cases h
      exact ⟨hm, .inl ⟨‹_›, rfl⟩⟩
    · cases h
      exact ⟨hm, .inr ⟨by simpa using ‹¬ s.run = true›, rfl⟩⟩

/-- The one way ISR answers a next state (42_tempo_clock.md R111, R112). -/
theorem execIsr_next {s t : State} (h : execIsr s = .next t) :
    s.ie = true ∧ s.tovf.val = true ∧
    ∃ th, s.threshold = some th ∧ t = (s.noteRead s.tovf.written).takeInterrupt.tempoTick th := by
  unfold execIsr at h
  split at h
  · rename_i he
    simp only [State.isrEnabled, Bool.and_eq_true] at he
    split at h
    · cases h
    · rename_i th hth
      cases h
      exact ⟨he.1, he.2, th, hth, rfl⟩
  · cases h

/-- The one way TEMPO_ADV answers a next state (42_tempo_clock.md R114). -/
theorem execTempoAdv_next {s t : State} (h : execTempoAdv s = .next t) :
    s.mph = .ready ∧ t = { s with tidx := BitVec.ofNat 4 ((s.tidx.toNat + 1) % s.cfg.nTempo) } := by
  unfold execTempoAdv at h
  split at h
  · cases h
  · cases h
    exact ⟨‹_›, rfl⟩

end Sys2Proof.Machine
end

