-- ==== Sys2Proof/Laws/PerInstr.lean ====
section
/-! SUPPORT. Statements made per instruction: the family EncodeRow. -/

namespace Sys2Proof.Laws.EncodeRow

open Sys2Proof

/-- The word the encoder gives lies in the instruction's row of the opcode table: its masked bits are the row's match, in
the row's format (30_encoding.md R82). -/
def Statement (i : Instr) : Prop :=
  i.row.format = (encode i).1 ∧ (encode i).2 &&& i.row.mask = i.row.value

theorem stepLo (v : BitVec 3) (d : BitVec 4) : Statement (.stepLo v d) := by
  unfold Statement
  revert v d
  decide

theorem stepHi (v : BitVec 3) (d : BitVec 4) : Statement (.stepHi v d) := by
  unfold Statement
  revert v d
  decide

theorem dn : Statement .dn := by unfold Statement; decide
theorem up : Statement .up := by unfold Statement; decide
theorem ovf : Statement .ovf := by unfold Statement; decide
theorem isr : Statement .isr := by unfold Statement; decide
theorem loopSample : Statement .loopSample := by unfold Statement; decide
theorem loopFinish : Statement .loopFinish := by unfold Statement; decide
theorem start : Statement .start := by unfold Statement; decide
theorem stop : Statement .stop := by unfold Statement; decide
theorem tempoAdv : Statement .tempoAdv := by unfold Statement; decide

theorem patternLatch (n : BitVec 4) : Statement (.patternLatch n) := by
  unfold Statement
  revert n
  decide

end Sys2Proof.Laws.EncodeRow
end

