-- ==== Sys2Proof/Laws/Runs.lean ====
section
/-! SUPPORT. Finite and endless runs: their unfoldings, and what one event does to IE and TOVF. -/

namespace Sys2Proof.Safety

open Sys2Proof Sys2Proof.Machine

@[simp] theorem firstEvents_zero (events : Nat → Instr) : firstEvents events 0 = [] := rfl

theorem firstEvents_succ (events : Nat → Instr) (n : Nat) :
    firstEvents events (n + 1) = firstEvents events n ++ [events n] := by
  simp [firstEvents, List.range_succ]

@[simp] theorem execAll_nil (s : State) : execAll [] s = .next s := rfl

/-- A run completes exactly when its first event does and the rest does from there. -/
theorem execAll_cons_eq_next {i : Instr} {is : List Instr} {s t : State} :
    execAll (i :: is) s = .next t ↔ ∃ m, exec i s = .next m ∧ execAll is m = .next t := by
  simp only [execAll]
  cases exec i s <;> simp

/-- A run of two parts. -/
theorem execAll_append_eq_next {is js : List Instr} {s t : State} :
    execAll (is ++ js) s = .next t ↔ ∃ m, execAll is s = .next m ∧ execAll js m = .next t := by
  induction is generalizing s with
  | nil => simp
  | cons i is ih => simp only [List.cons_append, execAll_cons_eq_next, ih]; aesop

/-- LOOP_FINISH leaves the interrupt's pending flag and its enable (10_state.md R39). -/
theorem execLoopFinish_pending {s t : State} (h : execLoopFinish s = .next t) :
    t.ie = s.ie ∧ t.tovf = s.tovf ∧ t.run = s.run := by
  obtain ⟨-, ⟨-, rfl⟩ | ⟨-, h⟩⟩ := execLoopFinish_next h
  · simp
  · rcases State.finishPlaying_next h with ⟨-, rfl⟩ | ⟨-, h⟩
    · simp
    · rcases State.runElement_next h with ⟨-, b, -, rfl⟩ | ⟨-, -, u, -, rfl⟩ | ⟨-, -, rfl⟩ <;> simp

/-- What one event does to IE, TOVF and RUN: OVF sets the flag, ISR takes it, the commands switch the enable, and the rest
leave all three (60_exceptions.md R153). -/
theorem exec_pending {i : Instr} {s t : State} (h : exec i s = .next t) :
    (i = .ovf ∧ t = { s with tovf := .put true }) ∨
    (i = .isr ∧ s.ie = true ∧ s.tovf.val = true ∧ t.ie = s.ie ∧ t.tovf = .put false ∧ t.run = s.run) ∨
    (i = .start ∧ ((s.run = true ∧ t = s) ∨ (s.run = false ∧ t.ie = true ∧ t.run = true ∧ t.tovf = .put false))) ∨
    (i = .stop ∧ ((s.run = false ∧ t = s) ∨ (s.run = true ∧ t.ie = false ∧ t.run = false ∧ t.tovf = s.tovf))) ∨
    (i ≠ .ovf ∧ i ≠ .isr ∧ i ≠ .start ∧ i ≠ .stop ∧ t.ie = s.ie ∧ t.tovf = s.tovf ∧ t.run = s.run) := by
  cases i with
  | ovf => cases h; exact .inl ⟨rfl, rfl⟩
  | isr =>
    obtain ⟨h1, h2, th, -, rfl⟩ := execIsr_next h
    simp [h1, h2]
  | start =>
    obtain ⟨-, ⟨h1, rfl⟩ | ⟨h1, rfl⟩⟩ := execStart_next h <;> simp [h1]
  | stop =>
    obtain ⟨-, ⟨h1, rfl⟩ | ⟨h1, rfl⟩⟩ := execStop_next h <;> simp [h1]
  | loopFinish => simpa using execLoopFinish_pending h
  | loopSample => obtain ⟨-, ⟨-, rfl⟩ | ⟨-, rfl⟩⟩ := execLoopSample_next h <;> simp
  | tempoAdv => obtain ⟨-, rfl⟩ := execTempoAdv_next h; simp
  | patternLatch n => obtain ⟨-, rfl⟩ := execPatternLatch_next h; simp
  | stepLo v d => obtain ⟨-, rfl⟩ := State.inVariant_eq_next.1 h; simp
  | stepHi v d => obtain ⟨-, rfl⟩ := State.inVariant_eq_next.1 h; simp
  | dn => obtain ⟨-, rfl⟩ := State.inVariant_eq_next.1 h; simp
  | up => obtain ⟨-, rfl⟩ := State.inVariant_eq_next.1 h; simp

end Sys2Proof.Safety
end

