-- ==== Sys2Proof/Laws/WellFormed.lean ====
section
/-! SUPPORT. What a well-formed configuration gives (00_scope.md R9), and that indices computed from it are in range
(20_memory.md R54). -/

namespace Sys2Proof

theorem mem_volumeClasses (v : BitVec 3) : v ∈ volumeClasses := by
  revert v
  decide

theorem Config.volumeOk_iff (c : Config) : c.volumeOk = true ↔ c.VolumeOk := by
  simp only [Config.volumeOk, List.all_eq_true, decide_eq_true_eq, Config.VolumeOk]
  exact ⟨fun h v => h v (mem_volumeClasses v), fun h v _ => h v⟩

theorem Config.tempoOk_iff (c : Config) : c.tempoOk = true ↔ c.TempoOk := by
  simp only [Config.tempoOk, Config.TempoOk, Bool.and_eq_true, decide_eq_true_eq, List.all_eq_true]

/-- The check that runs says what `Config.Wf` says. -/
theorem Config.wf_iff (c : Config) : c.wf = true ↔ c.Wf := by
  simp only [Config.wf, Bool.and_eq_true, decide_eq_true_eq, Config.volumeOk_iff, Config.tempoOk_iff]
  exact ⟨fun ⟨⟨⟨⟨⟨h1, h2⟩, h3⟩, h4⟩, h5⟩, h6⟩ => ⟨h1, h2, h3, h4, h5, h6⟩,
    fun ⟨h1, h2, h3, h4, h5, h6⟩ => ⟨⟨⟨⟨⟨h1, h2⟩, h3⟩, h4⟩, h5⟩, h6⟩⟩

theorem Config.nTempo_pos (c : Config) : 1 ≤ c.nTempo ∧ c.nTempo ≤ 9 := by
  unfold Config.nTempo
  split <;> omega

/-- An index below `N_TEMPO` has an entry, which is at least 1 and at most entry 0. -/
theorem Config.tempoAt_of_lt {c : Config} (h : c.Wf) {i : Nat} (hi : i < c.nTempo) :
    ∃ t, c.tempoAt i = some t ∧ 1 ≤ t.toNat ∧ t.toNat ≤ c.slowest.toNat := by
  obtain ⟨hl, hall⟩ := h.tempo
  have hi' : i < c.tempoTable.length := by omega
  exact ⟨c.tempoTable[i], List.getElem?_eq_getElem hi', hall _ (List.getElem_mem hi')⟩

/-- The instance is the configuration and the image: nothing else of the state enters (00_scope.md R9). -/
theorem Machine.State.instanceWf_congr {s t : Machine.State} (hc : t.cfg = s.cfg) (hr : t.rom = s.rom) :
    t.InstanceWf ↔ s.InstanceWf := by
  rw [Machine.State.InstanceWf, Machine.State.InstanceWf, hc, hr]

theorem stepAddress_lt {c : Config} {p i : Nat} (hp : p < c.npat) (hi : i < c.len) :
    p * c.len + i < c.npat * c.len := by
  have : (p + 1) * c.len ≤ c.npat * c.len := Nat.mul_le_mul_right _ hp
  rw [Nat.succ_mul] at this
  omega

theorem bitAddress_lt {c : Config} {p k : Nat} (hp : p < c.npat) (hk : k < c.len) :
    p * c.patternBytes + k / 8 < c.npat * c.patternBytes := by
  have : (p + 1) * c.patternBytes ≤ c.npat * c.patternBytes := Nat.mul_le_mul_right _ hp
  have h8 : k / 8 < c.patternBytes := by
    unfold Config.patternBytes
    omega
  rw [Nat.succ_mul] at this
  omega

end Sys2Proof
end

