-- ==== Sys2Proof/Machine/Rates.lean ====
section
/-! DEFINITION. The derived rates (70_reset_and_hazards.md R188), informative: no rule of the spec depends on time (R187)
and no step reads them. The main-loop rate `F_LOOP` is an argument: it is no parameter of 00_scope.md R8. DESIGN CHOICE
(entry 23): every rate is a rational number of events a second, since the spec gives no number type and no unit. safe. -/

namespace Sys2Proof.Machine

open Sys2Proof

/-- The step rate `F_TICK / TEMPO_TABLE[TIDX]` at threshold `t`. -/
def stepRate (c : Config) (t : Word16) : Rat := c.fTick / (t.toNat : Rat)

/-- The noise sample rate `F_LOOP / (dly + 1)` (43_audio_output.md R132). -/
def noiseRate (fLoop : Rat) (dly : Byte) : Rat := fLoop / ((dly.toNat + 1 : Nat) : Rat)

/-- The DPCM sample rate: the step rate, at most `F_LOOP` (43_audio_output.md R130). -/
def dpcmRate (c : Config) (fLoop : Rat) (t : Word16) : Rat := min (stepRate c t) fLoop

/-- The PWM carrier `F_CLK/256` (00_scope.md R8). -/
def carrierRate (c : Config) : Rat := c.fClk / 256

end Sys2Proof.Machine
end

