-- ==== Sys2Proof/Tests/Slice0.lean ====
section
/-! SUPPORT. The model's own tests: the refusals of each well-formedness check, words written out from the spec's
encodings, single events against the vectors of 95_test_vectors.md, and a witness for the hypotheses of each statement.
Every expected value is the spec's. -/

namespace Sys2Proof.Tests

open Sys2Proof Sys2Proof.Machine Sys2Proof.Safety

/-! Helpers. -/

/-- The outcome is a next state of which `p` holds. -/
def nextIs (o : Host.Outcome State Fault Refusal) (p : State → Bool) : Bool :=
  match o with
  | .next t => p t
  | .fault _ => false
  | .refused _ => false

/-- The outcome is the refusal `r`. -/
def refusedBy (o : Host.Outcome State Fault Refusal) (r : Refusal) : Bool :=
  match o with
  | .next _ => false
  | .fault _ => false
  | .refused q => decide (q = r)

theorem next_of_nextIs {o : Host.Outcome State Fault Refusal} {p : State → Bool} (h : nextIs o p = true) :
    ∃ t, o = .next t ∧ p t = true := by
  cases o with
  | next t => exact ⟨t, rfl, h⟩
  | fault f => simp [nextIs] at h
  | refused r => simp [nextIs] at h

theorem answers {o : Host.Outcome State Fault Refusal} (h : nextIs o (fun _ => true) = true) : ∃ t, o = .next t :=
  (next_of_nextIs h).imp fun _ h => h.1

theorem refused_of_refusedBy {o : Host.Outcome State Fault Refusal} {r : Refusal} (h : refusedBy o r = true) :
    o = .refused r := by
  cases o with
  | next t => simp [refusedBy] at h
  | fault f => simp [refusedBy] at h
  | refused q => simpa [refusedBy] using h

/-- The program of EXCFG (95_test_vectors.md section 2). -/
def noiseRom : Memory := Memory.placeAll [] 0 [0xB0, 0x01, 0xF2, 0x50, 0x8F, 0x00, 0x24, 0xC3]

/-- Power-on of EXCFG. -/
def idle : State := State.powerOn Config.example noiseRom

/-- Playing, right after START. -/
def started : State := idle.resetSequencer.enterPlaying

/-- Playing between two iterations, with a step active: the state before the LOOP of a V-LF row. -/
def playing (suc seen cur : Byte) (rng : Word16) (dctr : Byte) : State :=
  { started with suc := .put suc, seen := .put seen, cur := .put cur, rng := .put rng, dctr := .put dctr }

/-- The same inside an iteration, SUC sampled. -/
def inside (s : State) : State := { s with slatch := .put s.suc.val, mph := .sampled }

/-- DPCFG-A (95_test_vectors.md section 2). -/
def dpcmConfig (o : BitOrder) : Config :=
  { Config.example with variant := .dpcm, npat := 1, len := 12, tempoTable := [3], dpcmBitOrder := o }

/-- DPCFG-A in Playing between two iterations: the state before the LOOP of a V-LD row. -/
def dpcmPlaying (o : BitOrder) (suc seen cur amp : Byte) : State :=
  { (State.powerOn (dpcmConfig o) (Memory.placeAll [] 0 [0xF0, 0xA0])).resetSequencer.enterPlaying with
    suc := .put suc, seen := .put seen, cur := .put cur, amp := .put amp }

/-! Well-formedness: one ill-formed term for each check. -/

theorem test_example_wf : Config.example.wf = true := by decide
theorem test_npat_zero_refused : Config.wf { Config.example with npat := 0 } = false := by decide
theorem test_npat_17_refused : Config.wf { Config.example with npat := 17 } = false := by decide
theorem test_len_zero_refused : Config.wf { Config.example with len := 0 } = false := by decide
theorem test_len_255_refused : Config.wf { Config.example with len := 255 } = false := by decide
-- V-EXC-6
theorem test_volume_refused :
    Config.wf { Config.example with volOffset := #v[0x01, 0x40, 0x60, 0x70, 0x78, 0x7C, 0x7E, 0x7F] } = false := by
  decide
theorem test_tempo_count_refused : Config.wf { Config.example with tempoTable := [9] } = false := by decide
theorem test_tempo_zero_refused :
    Config.wf { Config.example with tempoTable := [9, 8, 7, 6, 5, 4, 3, 2, 0] } = false := by decide
theorem test_tempo_order_refused :
    Config.wf { Config.example with tempoTable := [9, 10, 7, 6, 5, 4, 3, 2, 1] } = false := by decide
-- V-EXC-7
theorem test_seed_bit15_refused : Config.wf { Config.example with seed := 0x8001 } = false := by decide
theorem test_seed_zero_refused : Config.wf { Config.example with seed := 0 } = false := by decide
theorem test_seed_low7_refused : Config.wf { Config.example with seed := 0x1200 } = false := by decide
theorem test_delta_zero_refused : Config.wf { Config.example with dpcmDelta := 0 } = false := by decide
theorem test_delta_128_refused : Config.wf { Config.example with dpcmDelta := 128 } = false := by decide
theorem test_dpcm_example_wf : (dpcmConfig .lsbFirst).wf = true := by decide
theorem test_step_byte_not_dpcm : (Instr.stepLo 0 0).wellFormed .dpcm = false := by decide
theorem test_step_bit_not_noise : Instr.up.wellFormed .noise = false := by decide
theorem test_unsorted_memory_refused : Memory.wf [(1, 5), (0, 6)] = false := by decide
theorem test_unlisted_byte_refused : Memory.wf [(0, 0)] = false := by decide
theorem test_image_past_rom_refused : ¬ State.InstanceWf { idle with rom := [(8, 1)] } := by decide

/-! Decoding: words written out bit by bit (30_encoding.md R71, R74, R77; V-DEC, V-ENC). -/

theorem test_decode_stepHi : decodeStep8 0b10110101 = .stepHi 3 5 := by decide
theorem test_decode_stepLo : decodeStep8 0b01011100 = .stepLo 5 12 := by decide
theorem test_decode_up : decodeDpcm1 true = .up := by decide
theorem test_decode_dn : decodeDpcm1 false = .dn := by decide
theorem test_decode_ovf : decodeEvt8 0b00010000 = .ok .ovf := by decide
theorem test_decode_isr : decodeEvt8 0b00100000 = .ok .isr := by decide
theorem test_decode_loopSample : decodeEvt8 0b00110000 = .ok .loopSample := by decide
theorem test_decode_loopFinish : decodeEvt8 0b00110001 = .ok .loopFinish := by decide
theorem test_decode_start : decodeEvt8 0b01000000 = .ok .start := by decide
theorem test_decode_stop : decodeEvt8 0b01000001 = .ok .stop := by decide
theorem test_decode_tempoAdv : decodeEvt8 0b01000010 = .ok .tempoAdv := by decide
theorem test_decode_patternLatch : decodeEvt8 0b01011111 = .ok (.patternLatch 15) := by decide
-- V-ENC-3
theorem test_reserved_words :
    [0x00, 0x11, 0x32, 0x43, 0x60, 0xFF].map decodeEvt8 = List.replicate 6 (.error .reservedEvent) := by decide
-- V-ENC-1
theorem test_assemble_noise :
    noiseImage [.pattern, .step true 3 5, .step false 0 0, .step true 7 15, .byte 0x50] = [0xB5, 0x00, 0xFF, 0x50] := by
  decide
-- P3a: the MSB_FIRST reading of F0 A0
theorem test_assemble_dpcm :
    dpcmImage .msbFirst [] [.pattern, .bits [true, true, true, true, false, false, false, false, true, false], .up, .dn] =
      [0xF0, 0xA0] := by decide
-- V-ENC-5
theorem test_pseudo_events :
    (expandStream false [.loop 1, .tick 1, .toggle, .toggle]).map encodeWord = [0x30, 0x31, 0x10, 0x20, 0x40, 0x41] := by
  decide
-- one table word of each format
theorem test_table_words :
    [0x01, 0x31, 0xB5].map (decodeTableWord 8) = [some .up, some .loopFinish, some (.stepHi 3 5)] := by decide
theorem test_table_word_runs_first :
    nextIs (step (State.reset.withFetchWord 8 0x01)) (fun t => decide (t.amp.val = 0x82)) = true := by decide

/-! The pure functions (V-LFSR, V-DEC, V-AMPL, V-DPCM). -/

-- V-LFSR-8
theorem test_advance_1201 :
    [advance .pinned 0x1201 true, advance .pinned 0x1201 false, advance .shifted 0x1201 false] =
      [0x4900, 0x1240, 0x0940] := by decide
-- V-LFSR-14
theorem test_advance_1ACE :
    [advance .pinned 0x1ACE true, advance .pinned 0x1ACE false, advance .shifted 0x1ACE false] =
      [0x4D67, 0x1AE7, 0x0D67] := by decide
-- V-DEC-6
theorem test_decodeStep_3A : decodeStep Config.example 0x3A = ⟨12, 0x1F, 0x70, false⟩ := by decide
-- V-AMPL-2
theorem test_ampl : ampl 0x00C3 0x1F 0x70 = 0x73 := by decide
-- V-DPCM-D3
theorem test_delta_down : dpcmDeltaOf { Config.example with dpcmDelta := 0x40 } false = 0xC0 := by decide
-- V-MEM-2
theorem test_step_fetch : State.stepByte { started with pat := 1, cur := .put 2 } = some 0x24 := by decide
-- V-MEM-4
theorem test_bit_fetch :
    [BitOrder.msbFirst, BitOrder.lsbFirst].map (fun o => (dpcmPlaying o 11 10 10 0x80).dpcmBit) =
      [some true, some false] := by decide

/-! Single events. -/

-- V-OVF-1
theorem test_ovf : nextIs (exec .ovf idle) (fun t => t.tovf.val && !t.ie) = true := by decide
-- V-ISR-1, T = 3
theorem test_isr_steps :
    nextIs (exec .isr { started with acc := .put 2, tidx := 6, tovf := .put true })
      (fun t => decide (t.acc.val = 0 ∧ t.suc.val = 1 ∧ t.tovf.val = false)) = true := by decide
-- V-ISR-5
theorem test_isr_suc_wraps :
    nextIs (exec .isr { started with suc := .put 255, tidx := 8, tovf := .put true })
      (fun t => decide (t.suc.val = 0)) = true := by decide
-- V-LS-1
theorem test_loopSample :
    nextIs (exec .loopSample (playing 3 3 2 1 0)) (fun t => decide (t.slatch.val = 3 ∧ t.mph = .sampled)) = true := by
  decide
-- V-LF-6: rollover
theorem test_loopFinish_rolls :
    nextIs (exec .loopFinish (inside (playing 5 4 3 0x1ACE 0)))
      (fun t => decide (t.suc.val = 1 ∧ t.cur.val = 0 ∧ t.seen.val = 1 ∧ t.rng.val = 0x4D67 ∧ t.pwm.val = 0x77)) = true := by
  decide
-- V-LD-5: several updates, one bit
theorem test_loopFinish_dpcm :
    nextIs (exec .loopFinish (inside (dpcmPlaying .msbFirst 11 8 7 0x80)))
      (fun t => decide (t.cur.val = 10 ∧ t.amp.val = 0x82 ∧ t.writes = [0x82])) = true := by decide
-- V-LF-5: the 7-bit lock of 0x4000
theorem test_stepLo_lock :
    nextIs (exec (.stepLo 0 1) (playing 2 2 1 0x4000 1))
      (fun t => decide (t.rng.val = 0x4000 ∧ t.pwm.val = 0 ∧ t.dctr.val = 0)) = true := by decide
-- V-LF-8
theorem test_stepHi_fires :
    nextIs (exec (.stepHi 4 3) (playing 4 4 3 0x1ACE 3)) (fun t => decide (t.pwm.val = 0x7F)) = true := by decide
-- V-LF-9
theorem test_stepHi_holds :
    nextIs (exec (.stepHi 4 3) (playing 4 4 3 0x1ACE 2)) (fun t => decide (t.dctr.val = 3 ∧ t.writes = [])) = true := by
  decide
-- V-DPCM-I1
theorem test_up_wraps : nextIs (exec .up (dpcmPlaying .msbFirst 1 1 0 0xFE)) (fun t => decide (t.amp.val = 0)) = true := by
  decide
-- V-DPCM-I2
theorem test_dn_wraps : nextIs (exec .dn (dpcmPlaying .msbFirst 1 1 0 0x01)) (fun t => decide (t.pwm.val = 0xFF)) = true := by
  decide
-- V-CMD-1
theorem test_start :
    nextIs (exec .start { idle with tovf := .put true })
      (fun t => decide (t.run = true ∧ t.ie = true ∧ t.rng.val = 1 ∧ t.amp.val = 0x80 ∧ t.tovf.val = false)) = true := by
  decide
-- V-CMD-3
theorem test_stop :
    nextIs (exec .stop { started with pwm := .put 0x73 })
      (fun t => decide (t.run = false ∧ t.ie = false ∧ t.pwm.val = 0x80 ∧ t.writes = [0x80])) = true := by decide
-- V-TMP-2
theorem test_tempoAdv_wraps : nextIs (exec .tempoAdv { idle with tidx := 8 }) (fun t => decide (t.tidx = 0)) = true := by
  decide
-- V-CMD-5
theorem test_patternLatch_clamps : nextIs (exec (.patternLatch 9) idle) (fun t => decide (t.pat = 1)) = true := by decide
-- V-EXC-5
theorem test_isr_in_idle_refused : refusedBy (exec .isr { idle with tovf := .put true }) .isrNotPending = true := by decide

/-! Witnesses: for each statement with hypotheses, a state and operands that meet them together, for each clause. -/

theorem idle_inv : Inv idle := by
  refine ⟨by decide, ?_, by decide, by decide, by decide, ?_, ?_, ?_, by decide, ?_, by decide, by decide⟩ <;> decide

/-- A Playing state between two iterations meets the invariants: SUC past the pattern's end, DCTR 0. -/
theorem playing_inv : Inv { playing 5 4 3 0x1ACE 0 with acc := .put 8 } := by
  refine ⟨by decide, ?_, by decide, by decide, by decide, ?_, ?_, ?_, by decide, ?_, by decide, by decide⟩ <;> decide

theorem playing_inside_pattern_inv : Inv (playing 3 2 1 0x1ACE 0) := by
  refine ⟨by decide, ?_, by decide, by decide, by decide, ?_, ?_, ?_, by decide, ?_, by decide, by decide⟩ <;> decide

theorem witness_ReservedEventWordsRefused :
    State.InstanceWf { idle with stream := [0x00] } ∧ ∀ i : Instr, i.format = .evt8 → encodeWord i ≠ 0x00 := by
  refine ⟨by decide, fun i hi => ?_⟩
  cases i with
  | patternLatch n => revert n; decide
  | stepLo v d => simp [Instr.format] at hi
  | stepHi v d => simp [Instr.format] at hi
  | up => simp [Instr.format] at hi
  | dn => simp [Instr.format] at hi
  | ovf => decide
  | isr => decide
  | loopSample => decide
  | loopFinish => decide
  | start => decide
  | stop => decide
  | tempoAdv => decide

theorem witness_DecodeEncodeAgree : decode .evt8 0x5F = .ok (.patternLatch 15) := by decide

theorem witness_StepRunsEventAtStreamHead :
    State.InstanceWf { idle with stream := [0x40, 0x30] } ∧ Instr.start.format = .evt8 ∧
      (0x40 : Byte) = encodeWord .start := by decide

theorem witness_StepRunsAnEnabledEvent : idle.InstanceWf ∧ idle.stream = [] := by decide

theorem witness_IllFormedInstanceRefused : ¬ State.InstanceWf { idle with cfg := { Config.example with npat := 0 } } := by
  decide

/-- The hypotheses of both clauses, at the two sides of the pattern's end: `s = L` and `s = L + 1`. -/
theorem witness_FinishRunsFetchedStepByte :
    ∀ n ∈ [(4 : Byte), 5], (let s := inside (playing n 3 2 1 0)
      s.cfg.variant = .noise ∧ s.run = true ∧ s.mph = .sampled ∧ s.slatch.written = true ∧ s.seen.written = true ∧
      s.slatch.val ≠ 0#8 ∧ 1 ≤ s.cfg.len ∧ s.pat.toNat < s.cfg.npat ∧
      ((n = 4 ∧ s.slatch.val.toNat ≤ s.cfg.len) ∨ (n = 5 ∧ s.cfg.len < s.slatch.val.toNat))) := by decide

theorem witness_FinishRunsFetchedStepBit :
    ∀ n ∈ [(12 : Byte), 13], (let s := inside (dpcmPlaying .lsbFirst n 11 10 0x80)
      s.cfg.variant = .dpcm ∧ s.run = true ∧ s.mph = .sampled ∧ s.slatch.written = true ∧ s.seen.written = true ∧
      s.slatch.val ≠ 0#8 ∧ s.slatch.val ≠ s.seen.val ∧ 1 ≤ s.cfg.len ∧ s.pat.toNat < s.cfg.npat ∧
      ((n = 12 ∧ s.slatch.val.toNat ≤ s.cfg.len) ∨ (n = 13 ∧ s.cfg.len < s.slatch.val.toNat))) := by decide

/-- A pending tick at the threshold 3, with `a` in ACC. -/
def tickAt (a : Word16) : State := { started with acc := .put a, tidx := 6, tovf := .put true }

theorem witness_IsrServicesTick_state (a : Word16) :
    (tickAt a).ie = true ∧ (tickAt a).tovf.val = true ∧ (tickAt a).tovf.written = true ∧
      (tickAt a).acc.written = true ∧ (tickAt a).suc.written = true := by refine ⟨?_, ?_, ?_, ?_, ?_⟩ <;> rfl

/-- The threshold, and both clauses: `ACC + 1 = 3` and `ACC + 1 = 2`. -/
theorem witness_IsrServicesTick_clauses :
    (tickAt 2).cfg.tempoTable[(tickAt 2).tidx.toNat]? = some 3 ∧
      (3 : Word16).toNat ≤ ((tickAt 2).acc.val + 1).toNat ∧ ¬ (3 : Word16).toNat ≤ ((tickAt 1).acc.val + 1).toNat := by
  refine ⟨?_, ?_, ?_⟩ <;> decide

theorem witness_IsrEnabledExactly :
    idle.tidx.toNat < idle.cfg.tempoTable.length ∧ ¬ (idle.ie = true ∧ idle.tovf.val = true) := by decide

/-- Two pending states that the interrupt context cannot tell apart. -/
def pendingA : State := { started with tovf := .put true }
def pendingB : State := { playing 0 2 1 7 9 with tovf := .put true, pat := 1 }

theorem witness_IsrSeesOnlyItsRegisters_same : SameForIsr pendingA pendingB := by
  refine ⟨?_, ?_, ?_, ?_, ?_, ?_⟩ <;> decide

theorem witness_IsrSeesOnlyItsRegisters_next : ∃ t, exec .isr pendingA = .next t := answers (by decide)

theorem witness_TempoAdvStepsIndex :
    (idle.mph = .ready ∧ State.tidx { idle with tidx := 8 } = 8 ∧ 8 < idle.cfg.nTempo) ∧
      (let s := dpcmPlaying .msbFirst 1 1 0 0
       s.mph = .ready ∧ s.tidx.toNat < s.cfg.nTempo ∧ s.cfg.variant = .dpcm) := by decide

theorem witness_TempoAdvAnyIndex : State.mph { idle with tidx := 15 } = .ready := by decide

/-- Both clauses at threshold 9: the last tick before it and the one that reaches it. -/
theorem witness_StepUpdatePeriod :
    ∀ n ∈ [8, 9], started.ie = true ∧ started.acc.val = 0 ∧
      started.cfg.tempoTable[started.tidx.toNat]? = some 9 ∧ n ≤ (9 : Word16).toNat ∧
      ((n = 8 ∧ n < (9 : Word16).toNat) ∨ (n = 9 ∧ n = (9 : Word16).toNat ∧ 1 ≤ n)) := by decide

theorem witness_ServicedRunsLoseNoTick :
    idle.ie = idle.run ∧ IsrServiced idle.ie idle.tovf.val ([.start, .ovf, .isr] ++ .ovf :: []) = true ∧
      ∃ t, execAll [.start, .ovf, .isr] idle = .next t ∧ t.ie = true :=
  ⟨by decide, by decide, next_of_nextIs (p := fun t => t.ie) (by decide)⟩

theorem witness_LoopSampleReadsOnce :
    (started.mph = .ready ∧ started.run = true ∧ started.suc.written = true) ∧
      (idle.mph = .ready ∧ idle.run = false) ∧ (inside started).mph = .sampled := by decide

/-- LOOP_SAMPLE's read of SUC. -/
theorem witness_UnwrittenReadIsRecorded_loopSample :
    (let s : State := { idle with run := true }
     s.mph = .ready ∧ s.run = true ∧ s.suc.written = false) := by decide

/-- ISR's read of ACC, and at the threshold 9 its read of SUC. -/
theorem witness_UnwrittenReadIsRecorded_isr :
    (let s : State := { idle with ie := true, tovf := .put true, acc := .unwritten 8 }
     s.ie = true ∧ s.tovf.val = true ∧ s.cfg.tempoTable[s.tidx.toNat]? = some 9 ∧ s.acc.written = false ∧
     (9 : Word16).toNat ≤ (s.acc.val + 1).toNat ∧ s.suc.written = false) := by decide

/-- LOOP_FINISH's read of SLATCH holding 0, and its read of SEEN. -/
theorem witness_UnwrittenReadIsRecorded_loopFinish :
    (let s : State := { idle with run := true, mph := .sampled }
     s.mph = .sampled ∧ s.run = true ∧ 1 ≤ s.cfg.len ∧ s.pat.toNat < s.cfg.npat ∧ s.slatch.written = false) ∧
    (let s : State := { idle with run := true, mph := .sampled, slatch := .put 5 }
     s.mph = .sampled ∧ s.run = true ∧ 1 ≤ s.cfg.len ∧ s.pat.toNat < s.cfg.npat ∧ s.slatch.val ≠ 0#8 ∧
     s.seen.written = false) := by decide

/-- The step elements' reads of DCTR, of RNG where the gate fires, and of AMP. -/
theorem witness_UnwrittenReadIsRecorded_elements :
    (idle.cfg.variant = .noise ∧ idle.dctr.written = false) ∧
    (let s : State := { idle with dctr := .put 3 }
     s.cfg.variant = .noise ∧ s.rng.written = false ∧
     (s.cfg.delayTable[(3 : BitVec 4).toNat]'(by decide)).toNat ≤ s.dctr.val.toNat) ∧
    (let s := State.powerOn (dpcmConfig .msbFirst) []
     s.cfg.variant = .dpcm ∧ s.amp.written = false) := by decide

theorem witness_WrongPhaseRefused : (inside started).mph = .sampled ∧ started.mph = .ready := by decide

theorem witness_FinishIdleWritesQuiescent :
    (let s : State := { idle with mph := .sampled }
     s.mph = .sampled ∧ s.run = false) := by decide

theorem witness_FinishBeforeFirstStep :
    (let s := inside started
     s.mph = .sampled ∧ s.run = true ∧ s.slatch.written = true ∧ s.slatch.val = 0#8) := by decide

/-- At the boundary `DCTR = dly`, with the delay 3. -/
theorem witness_NoiseGateFires :
    (let s := playing 4 4 3 0x1ACE 3
     s.cfg.variant = .noise ∧ s.dctr.written = true ∧ s.rng.written = true ∧ s.rng.val ≠ 0#16 ∧
     (s.cfg.delayTable[(3 : BitVec 4).toNat]'(by decide)).toNat ≤ s.dctr.val.toNat) := by decide

/-- One below it. -/
theorem witness_NoiseGateHolds :
    (let s := playing 4 4 3 0x1ACE 2
     s.cfg.variant = .noise ∧ s.dctr.written = true ∧
     s.dctr.val.toNat < (s.cfg.delayTable[(3 : BitVec 4).toNat]'(by decide)).toNat) := by decide

/-- For both clauses of StepElementsComplete and of OtherVariantElementRefused. -/
theorem witness_variants :
    (playing 1 1 0 1 0).cfg.variant = .noise ∧ (dpcmPlaying .msbFirst 1 1 0 0).cfg.variant = .dpcm := by decide

theorem witness_DpcmElementsMoveAmplitude :
    (let s := dpcmPlaying .msbFirst 1 1 0 0xFF
     s.cfg.variant = .dpcm ∧ s.amp.written = true) := by decide

theorem witness_DpcmGateHolds :
    (let s := inside (dpcmPlaying .msbFirst 12 12 11 0x82)
     s.cfg.variant = .dpcm ∧ s.mph = .sampled ∧ s.run = true ∧ s.slatch.written = true ∧ s.seen.written = true ∧
     s.slatch.val ≠ 0#8 ∧ s.slatch.val = s.seen.val ∧ s.slatch.val.toNat ≤ s.cfg.len) := by decide

theorem witness_AmplitudeStaysInWindow : Config.example.wf = true := test_example_wf

/-- Step 2 of pattern 0 is 0xF2, with delay 2: `n` ranges over 0 to 2. -/
theorem witness_NoiseEmissionPeriod :
    Inv (playing 3 2 1 0x1ACE 0) ∧
      (let s := playing 3 2 1 0x1ACE 0
       s.cfg.variant = .noise ∧ s.run = true ∧ s.mph = .ready ∧ s.suc.val ≠ 0#8 ∧ s.suc.val.toNat ≤ s.cfg.len ∧
       s.dctr.val = 0 ∧ s.rom.read (s.pat.toNat * s.cfg.len + (s.suc.val.toNat - 1)) = 0xF2 ∧
       2 ≤ (decodeStep s.cfg 0xF2).dly.toNat) :=
  ⟨playing_inside_pattern_inv, by decide⟩

theorem witness_RolloverLosesUpdate :
    Inv { playing 5 4 3 0x1ACE 0 with acc := .put 8 } ∧
      (let s : State := { playing 5 4 3 0x1ACE 0 with acc := .put 8 }
       s.run = true ∧ s.mph = .ready ∧ s.cfg.len < s.suc.val.toNat ∧
       s.cfg.tempoTable[s.tidx.toNat]? = some 9 ∧ (9 : Word16).toNat ≤ s.acc.val.toNat + 1) :=
  ⟨playing_inv, by decide⟩

/-- The two ends of the LFSR's states, 0x0001 and 0x7FFF, for the three statements about them. -/
theorem witness_lfsr_states :
    ((0x0001 : Word16) ≠ 0#16 ∧ (0x0001 : Word16).getLsbD 15 = false ∧ (0x0001 : Word16).extractLsb' 0 7 ≠ 0#7) ∧
      (0x7FFF : Word16) ≠ 0#16 ∧ (0x7FFF : Word16).getLsbD 15 = false ∧ (0x7FFF : Word16).extractLsb' 0 7 ≠ 0#7 := by
  refine ⟨⟨?_, ?_, ?_⟩, ?_, ?_, ?_⟩ <;> decide

/-- The least state of the lock. -/
theorem witness_PinnedLock : (0x0080 : Word16) ≠ 0#16 ∧ (0x0080 : Word16).extractLsb' 0 7 = 0#7 := by decide

theorem witness_ZeroStateIsRecorded :
    (let s := playing 4 4 3 0 3
     s.cfg.variant = .noise ∧ s.dctr.written = true ∧ s.rng.written = true ∧ s.rng.val = 0#16 ∧
     (s.cfg.delayTable[(3 : BitVec 4).toNat]'(by decide)).toNat ≤ s.dctr.val.toNat) := by decide

/-- For StartFromIdle, StopFromPlaying, both clauses of RepeatedCommandsChangeNothing, and PatternLatchClamps. -/
theorem witness_commands :
    (idle.mph = .ready ∧ idle.run = false) ∧ (started.mph = .ready ∧ started.run = true) := by decide

theorem witness_RestartEquivalence_state :
    started.mph = .ready ∧ started.run = true ∧ started.faults = FaultSet.empty := by decide

theorem witness_RestartEquivalence_stop_start : ∃ t, execAll [.stop, .start] started = .next t := answers (by decide)

theorem witness_RestartEquivalence_start : ∃ u, exec .start idle = .next u := answers (by decide)

/-- The first step of pattern 0 is 0xB0, with delay 0. -/
theorem witness_EndToEndFirstSample :
    Inv idle ∧ idle.cfg.variant = .noise ∧ idle.run = false ∧ idle.mph = .ready ∧
      idle.cfg.tempoTable[idle.tidx.toNat]? = some 9 ∧ idle.rom.read (idle.pat.toNat * idle.cfg.len) = 0xB0 ∧
      (decodeStep idle.cfg 0xB0).dly = 0 := ⟨idle_inv, by decide⟩

theorem witness_PowerOnMeetsInv : (State.powerOn Config.example noiseRom).InstanceWf := by decide

theorem witness_StepKeepsInv :
    Inv { idle with stream := [0x30] } ∧ ∃ t, step { idle with stream := [0x30] } = .next t := by
  refine ⟨?_, answers (by decide)⟩
  refine ⟨by decide, ?_, by decide, by decide, by decide, ?_, ?_, ?_, by decide, ?_, by decide, by decide⟩ <;> decide

/-- LOOP_FINISH answers a next state in both variants: for InstructionsRespectOwnership, PwmWritesAreObserved and
FinishLeavesOtherVariantRegisters. -/
theorem witness_next_states :
    (∃ t, exec .loopFinish (inside (playing 5 4 3 0x1ACE 0)) = .next t) ∧
      ∃ t, exec .loopFinish (inside (dpcmPlaying .msbFirst 11 8 7 0x80)) = .next t :=
  ⟨answers (by decide),
    answers (by decide)⟩

theorem witness_FaultsAreNeverCleared :
    (∃ t, step { idle with stream := [0x40], faults := ⟨true, true⟩ } = .next t) :=
  answers (by decide)

theorem witness_EnabledEventsAreThoseThatRun :
    Inv idle ∧ (Instr.ovf.format = .evt8 ∧ Instr.ovf ∈ idle.enabled) ∧
      (Instr.isr.format = .evt8 ∧ Instr.isr ∉ idle.enabled) := ⟨idle_inv, by decide⟩

theorem witness_CoreNeverStops : Inv idle ∧ idle.stream = [] := ⟨idle_inv, by decide⟩

/-- An endless run in Playing: one hardware tick, its ISR, then iterations with no step active. -/
def servedEvents : Nat → Instr
  | 0 => .ovf
  | 1 => .isr
  | n + 2 => if n % 2 = 0 then .loopSample else .loopFinish

/-- Playing, nothing pending, SLATCH 0. -/
def calm : State := { started with slatch := .put 0 }

/-- The states of that run. -/
def servedStates : Nat → State
  | 0 => calm
  | 1 => { calm with tovf := .put true }
  | n + 2 => { calm with acc := .put 1, mph := if n % 2 = 0 then .ready else .sampled }

theorem served_isRun : IsRun servedEvents servedStates := by
  intro n
  match n with
  | 0 => rfl
  | 1 => rfl
  | n + 2 =>
    rcases Nat.mod_two_eq_zero_or_one n with h | h
    · have h' : (n + 1) % 2 ≠ 0 := by omega
      simp only [servedEvents, servedStates, if_pos h, if_neg h']
      rfl
    · have h' : (n + 1) % 2 = 0 := by omega
      simp only [servedEvents, servedStates, h, if_pos h', if_neg Nat.one_ne_zero]
      rfl

theorem served_isServiced : IsrServicedForever servedEvents servedStates := by
  refine ⟨fun _ h => absurd h (by decide), fun n h _ => ?_⟩
  match n with
  | 0 => exact ⟨1, le_rfl, .inl rfl, fun k h1 h2 => absurd h1 (by omega)⟩
  | 1 => exact absurd h (by decide)
  | n + 2 =>
    simp only [servedEvents] at h
    split at h <;> cases h

theorem served_isFair : LoopFair servedEvents := by
  refine ⟨fun n => ⟨2 * n + 2, by omega, ?_⟩, fun n => ⟨2 * n + 3, by omega, ?_⟩⟩
  · exact if_pos (by omega)
  · exact if_neg (by omega)

/-- The run meets the hypotheses, and its tick is pending at event 1. -/
theorem witness_PendingTickIsTaken :
    IsRun servedEvents servedStates ∧ IsrServicedForever servedEvents servedStates ∧
      (servedStates 1).ie = true ∧ (servedStates 1).tovf.val = true := ⟨served_isRun, served_isServiced, rfl, rfl⟩

theorem witness_ServicedRunPrefixesAreServiced :
    IsRun servedEvents servedStates ∧ IsrServicedForever servedEvents servedStates ∧
      (servedStates 0).ie = (servedStates 0).run ∧ servedEvents 0 = .ovf := ⟨served_isRun, served_isServiced, rfl, rfl⟩

end Sys2Proof.Tests
end

/-! The event decoder and its words (30_encoding.md R77, R79). -/

namespace Sys2Proof

open Sys2Proof.Machine

/-- The decoder reads the word of every event back as that event (30_encoding.md R77). -/
theorem decodeEvt8_encodeWord {i : Instr} (hi : i.format = .evt8) : decodeEvt8 (encodeWord i) = .ok i := by
  cases i with
  | stepLo | stepHi | dn | up => cases hi
  | ovf | isr | loopSample | loopFinish | start | stop | tempoAdv => rfl
  | patternLatch n => revert n; decide

/-- A byte whose high nibble is 5 is the pattern string `0101nnnn` with its own low nibble as `n` (30_encoding.md R77). -/
theorem encodeWord_patternLatch_lowNibble {w : Byte} (h : w.extractLsb' 4 4 = 0x5) :
    encodeWord (.patternLatch (w.extractLsb' 0 4)) = w := by
  calc 0x5#4 ++ w.extractLsb' 0 4
      = w.extractLsb' 4 4 ++ w.extractLsb' 0 4 := by rw [h]; rfl
    _ = w.extractLsb' 0 8 := BitVec.extractLsb'_append_extractLsb'_eq_extractLsb' rfl
    _ = w := BitVec.extractLsb'_eq_self

/-- What the decoder accepts is an event, and the word is that event's. -/
theorem encodeWord_of_decodeEvt8 {w : Byte} {i : Instr} (h : decodeEvt8 w = .ok i) :
    i.format = .evt8 ∧ encodeWord i = w := by
  unfold decodeEvt8 at h
  split_ifs at h with hOvf hIsr hSample hFinish hStart hStop hTempo hLatch <;> cases h
  · exact ⟨rfl, hOvf.symm⟩
  · exact ⟨rfl, hIsr.symm⟩
  · exact ⟨rfl, hSample.symm⟩
  · exact ⟨rfl, hFinish.symm⟩
  · exact ⟨rfl, hStart.symm⟩
  · exact ⟨rfl, hStop.symm⟩
  · exact ⟨rfl, hTempo.symm⟩
  · exact ⟨rfl, encodeWord_patternLatch_lowNibble hLatch⟩

/-- The events' decoder and encoder are inverse to each other. -/
theorem decodeEvt8_eq_ok_iff {w : Byte} {i : Instr} :
    decodeEvt8 w = .ok i ↔ i.format = .evt8 ∧ encodeWord i = w :=
  ⟨encodeWord_of_decodeEvt8, fun ⟨hi, hw⟩ => hw ▸ decodeEvt8_encodeWord hi⟩

/-- The event decoder rejects a word for one reason only (30_encoding.md R79). -/
theorem decodeEvt8_error {w : Byte} {e : Reject} (h : decodeEvt8 w = .error e) : e = .reservedEvent := by
  unfold decodeEvt8 at h
  split_ifs at h
  cases h
  rfl

/-- The rejected words are those no event encodes to (30_encoding.md R79). -/
theorem decodeEvt8_eq_reservedEvent_iff (w : Byte) :
    decodeEvt8 w = .error .reservedEvent ↔ ∀ i : Instr, i.format = .evt8 → encodeWord i ≠ w := by
  constructor
  · intro h i hi hw
    cases h.symm.trans (decodeEvt8_eq_ok_iff.2 ⟨hi, hw⟩)
  · intro hNone
    cases h : decodeEvt8 w with
    | error e => rw [decodeEvt8_error h]
    | ok i =>
      obtain ⟨hi, hw⟩ := encodeWord_of_decodeEvt8 h
      exact absurd hw (hNone i hi)

/-- The step of a well-formed instance whose next word the decoder rejects (30_encoding.md R79). -/
theorem Machine.step_of_decodeEvt8_error {s : State} {w : Byte} {rest : List Byte} {e : Reject}
    (hwf : s.InstanceWf) (hs : s.stream = w :: rest) (he : decodeEvt8 w = .error e) :
    step s = .refused .reservedEvent := by
  simp only [step, if_pos hwf, hs, he]

/-- Settles O3: the two directions of the decoder decide which words are reserved, and `step` refuses each of them. -/
theorem reservedEventWordsRefused : Obligations.ReservedEventWordsRefused :=
  ⟨decodeEvt8_eq_reservedEvent_iff, fun _ w _ hwf hs hNone =>
    step_of_decodeEvt8_error hwf hs ((decodeEvt8_eq_reservedEvent_iff w).2 hNone)⟩

/-- Settles O1: each of the eight pattern strings is the word of its event, which the decoder reads back. -/
theorem eventWordsDecode : Obligations.EventWordsDecode :=
  ⟨decodeEvt8_encodeWord (i := .ovf) rfl, decodeEvt8_encodeWord (i := .isr) rfl,
    decodeEvt8_encodeWord (i := .loopSample) rfl, decodeEvt8_encodeWord (i := .loopFinish) rfl,
    decodeEvt8_encodeWord (i := .start) rfl, decodeEvt8_encodeWord (i := .stop) rfl,
    decodeEvt8_encodeWord (i := .tempoAdv) rfl, fun n => decodeEvt8_encodeWord (i := .patternLatch n) rfl⟩

end Sys2Proof

/-! The bits of the LFSR step, and ADVANCE of the state 0 (40_lfsr.md R90 to R94). -/

namespace Sys2Proof.Machine

/-- The injected feedback stands at one bit, and every other bit is 0. -/
theorem getLsbD_inject (fb : Bool) {n : Nat} (hn : n < 16) (i : Nat) :
    (inject fb n).getLsbD i = (decide (i = n) && fb) := by
  rw [inject, BitVec.getLsbD_shiftLeft, BitVec.getLsbD_setWidth, BitVec.getLsbD_ofBool]
  by_cases h : i = n
  · simp [h, hn]
  · have hor : i < n ∨ i - n ≠ 0 := by omega
    rcases hor with hlt | hne
    · simp [h, hlt]
    · simp [h, hne]

/-- A shift of the whole register with the feedback injected at bit `n`: the 15-bit step (40_lfsr.md R91) and the SHIFTED
7-bit step (R93) are this with `n` 14 and 6. -/
theorem getLsbD_shift_or_inject (c : Word16) {n : Nat} (hn : n < 16) (i : Nat) :
    ((c >>> 1) ||| inject (feedback c) n).getLsbD i = (c.getLsbD (i + 1) || (decide (i = n) && feedback c)) := by
  rw [BitVec.getLsbD_or, BitVec.getLsbD_ushiftRight, getLsbD_inject _ hn, Nat.add_comm]

theorem getLsbD_advanceHigh (c : Word16) (i : Nat) :
    (advanceHigh c).getLsbD i = (c.getLsbD (i + 1) || (decide (i = 14) && feedback c)) :=
  getLsbD_shift_or_inject c (by decide) i

theorem getLsbD_advanceShifted (c : Word16) (i : Nat) :
    (advanceShifted c).getLsbD i = (c.getLsbD (i + 1) || (decide (i = 6) && feedback c)) :=
  getLsbD_shift_or_inject c (by decide) i

/-- The two masks of the PINNED step, `0xFF80` and `0x007F`, select bits 15..7 and bits 6..0. -/
theorem advancePinned_eq (c : Word16) :
    advancePinned c =
      (c &&& BitVec.allOnes 16 <<< 7) ||| ((c &&& (BitVec.allOnes 7).setWidth 16) >>> 1) ||| inject (feedback c) 6 := rfl

theorem getLsbD_and_bitsFrom7 (c : Word16) (i : Nat) :
    (c &&& BitVec.allOnes 16 <<< 7).getLsbD i = (decide (7 ≤ i) && c.getLsbD i) := by
  rw [BitVec.getLsbD_and, BitVec.getLsbD_shiftLeft, BitVec.getLsbD_allOnes]
  by_cases hi : i < 16
  · by_cases h7 : i < 7
    · simp [h7]
    · simp [hi, h7, Nat.sub_lt_of_lt hi, Nat.le_of_not_lt h7]
  · simp [BitVec.getLsbD_of_ge c i (Nat.le_of_not_lt hi)]

theorem getLsbD_and_bitsBelow7 (c : Word16) (i : Nat) :
    (c &&& (BitVec.allOnes 7).setWidth 16).getLsbD i = (decide (i < 7) && c.getLsbD i) := by
  rw [BitVec.getLsbD_and, BitVec.getLsbD_setWidth, BitVec.getLsbD_allOnes]
  by_cases hi : i < 16
  · simp [hi, Bool.and_comm]
  · simp [BitVec.getLsbD_of_ge c i (Nat.le_of_not_lt hi)]

/-- The PINNED 7-bit step (40_lfsr.md R92) by its three parts: bits 15..7 kept, bits 6..1 shifted down, and the feedback. -/
theorem getLsbD_advancePinned (c : Word16) (i : Nat) :
    (advancePinned c).getLsbD i =
      ((decide (7 ≤ i) && c.getLsbD i || decide (i < 6) && c.getLsbD (i + 1)) || decide (i = 6) && feedback c) := by
  have hshift : 1 + i < 7 ↔ i < 6 := by omega
  rw [advancePinned_eq, BitVec.getLsbD_or, BitVec.getLsbD_or, getLsbD_and_bitsFrom7, BitVec.getLsbD_ushiftRight,
    getLsbD_and_bitsBelow7, getLsbD_inject _ (by decide), decide_eq_decide.2 hshift, Nat.add_comm 1 i]

/-! ADVANCE by its width and reading (40_lfsr.md R90). -/

theorem advance_high (f : LowresForm) (c : Word16) : advance f c true = advanceHigh c := rfl
theorem advance_low_pinned (c : Word16) : advance .pinned c false = advancePinned c := rfl
theorem advance_low_shifted (c : Word16) : advance .shifted c false = advanceShifted c := rfl

/-- ADVANCE of 0 is 0 in both widths and both readings (40_lfsr.md R94). -/
theorem advance_zero (f : LowresForm) (hi : Bool) : advance f 0#16 hi = 0#16 := by
  cases hi with
  | true => rfl
  | false => cases f <;> rfl

/-- The sample of `r = 0` is the volume class's offset (41_step_decoder.md R105). -/
theorem ampl_zero (mask off : Byte) : ampl 0#16 mask off = off := by
  simp [ampl]

/-- The emission from a written RNG as one state (43_audio_output.md R127, 40_lfsr.md R94). -/
theorem State.emitNoise_of_rng_written {s : State} (h : s.rng.written = true) (p : StepParams) :
    s.emitNoise p =
      { s with
        rng := .put (advance s.cfg.lowresForm s.rng.val p.hi)
        pwm := .put (ampl (advance s.cfg.lowresForm s.rng.val p.hi) p.mask p.off)
        writes := s.writes ++ [ampl (advance s.cfg.lowresForm s.rng.val p.hi) p.mask p.off]
        faults := if s.rng.val == 0#16 then s.faults.insert .lfsrZero else s.faults } := by
  apply State.ext <;> simp [State.emitNoise_faults, h]

/-- In the noise variant a step element answers the delay gate's state with its own parameters (43_audio_output.md R126). -/
theorem exec_step_of_noise {s : State} (h : s.cfg.variant = .noise) (v : BitVec 3) (d : BitVec 4) :
    exec (.stepHi v d) s = .next (s.noiseStage (stepParams s.cfg true v d)) ∧
      exec (.stepLo v d) s = .next (s.noiseStage (stepParams s.cfg false v d)) :=
  ⟨State.inVariant_eq_next.2 ⟨h, rfl⟩, State.inVariant_eq_next.2 ⟨h, rfl⟩⟩

/-- The gate fires on `RNG = 0`: LFSR_ZERO is recorded, RNG stays 0 and the offset is the sample (40_lfsr.md R94). -/
theorem State.noiseStage_fires_of_rng_zero {s : State} {p : StepParams} (hgate : p.dly ≤ s.dctr.val)
    (hdctr : s.dctr.written = true) (hrng : s.rng.written = true) (hzero : s.rng.val = 0#16) :
    s.noiseStage p =
      { s with
        dctr := .put 0, rng := .put 0, pwm := .put p.off, writes := s.writes ++ [p.off]
        faults := s.faults.insert .lfsrZero } := by
  rw [State.noiseStage_fires hgate, State.emitNoise_of_rng_written (by simpa using hrng)]
  simp [State.noteRead, hdctr, hzero, advance_zero, ampl_zero]

end Sys2Proof.Machine

namespace Sys2Proof

open Sys2Proof.Machine

/-- Settles O34: the shift gives bits 13..0, and bit 15 of the shifted register is past the word. -/
theorem highStepBits : Obligations.HighStepBits := by
  intro f c
  rw [advance_high]
  refine ⟨?_, ?_, fun i hi => ?_⟩
  · rw [getLsbD_advanceHigh, BitVec.getLsbD_of_ge c 16 le_rfl]
    rfl
  · rw [getLsbD_advanceHigh, Bool.or_comm]
    rfl
  · simp [getLsbD_advanceHigh, Nat.ne_of_lt hi]

/-- Settles O35: each bit lies in exactly one of the three parts of the PINNED step. -/
theorem pinnedStepBits : Obligations.PinnedStepBits := by
  intro c
  rw [advance_low_pinned]
  refine ⟨fun i hi => ?_, ?_, fun i hi => ?_⟩
  · have h6 : ¬ i < 6 ∧ i ≠ 6 := by omega
    simp [getLsbD_advancePinned, hi, h6]
  · rw [getLsbD_advancePinned]
    rfl
  · have h7 : ¬ 7 ≤ i ∧ i ≠ 6 := by omega
    simp [getLsbD_advancePinned, hi, h7]

/-- Settles O36: the whole register shifts, and the feedback reaches bit 6 alone. -/
theorem shiftedStepBits : Obligations.ShiftedStepBits := by
  intro c
  rw [advance_low_shifted]
  refine ⟨?_, fun i hi => ?_⟩
  · rw [getLsbD_advanceShifted, Bool.or_comm]
    rfl
  · simp [getLsbD_advanceShifted, hi]

/-- Settles O37: both elements run the gate that fires on the zero state, and only the width differs. -/
theorem zeroStateIsRecorded : Obligations.ZeroStateIsRecorded := by
  intro s v d hnoise hdctr hrng hzero hgate
  obtain ⟨hHi, hLo⟩ := exec_step_of_noise hnoise v d
  have hfires (hi : Bool) := State.noiseStage_fires_of_rng_zero (p := stepParams s.cfg hi v d) hgate hdctr hrng hzero
  exact ⟨hHi.trans (congrArg _ (hfires true)), hLo.trans (congrArg _ (hfires false))⟩

end Sys2Proof

/-! The element a fetched byte or bit spells, and LOOP_FINISH as that element's run (41_step_decoder.md R106, R108,
43_audio_output.md R122). -/

namespace Sys2Proof.Machine

open Sys2Proof

/-- Running the fetched byte is `exec` of the element it decodes to (41_step_decoder.md R108). -/
theorem exec_decodeStep8 (b : Byte) (s : State) : exec (decodeStep8 b) s = runStepByte b s := by
  unfold decodeStep8 runStepByte
  split <;> rfl

/-- Running the fetched bit is `exec` of the element it decodes to (30_encoding.md R74). -/
theorem exec_decodeDpcm1 (u : Bool) (s : State) : exec (decodeDpcm1 u) s = runStepBit u s := by
  cases u <;> rfl

/-- The bit at a position of R106 is the statement's `stepBitOf`, in either order. -/
theorem getLsbD_bitPosition (o : BitOrder) (b : Byte) (k : Nat) : b.getLsbD (bitPosition o k) = stepBitOf o b k := by
  cases o <;> rfl

section Fetch

variable {s : State} {k : Nat} {new : Bool} (hp : s.pat.toNat < s.cfg.npat) (hcur : s.cur.val.toNat = k)
  (hk : k < s.cfg.len)
include hp hcur hk

/-- The noise variant's fetch lies inside the ROM (41_step_decoder.md R108, 20_memory.md R52). -/
theorem State.stepByte_of_lt (hv : s.cfg.variant = .noise) :
    s.stepByte = some (s.rom.read (s.pat.toNat * s.cfg.len + k)) := by
  have haddr : s.pat.toNat * s.cfg.len + k < s.cfg.romSize := by
    simpa only [Config.romSize, hv] using stepAddress_lt hp hk
  exact State.romByte_eq_some.2 ⟨hcur ▸ haddr, hcur ▸ rfl⟩

/-- The DPCM variant's fetch lies inside the ROM (41_step_decoder.md R106, 20_memory.md R53). -/
theorem State.dpcmBit_of_lt (hv : s.cfg.variant = .dpcm) :
    s.dpcmBit = some (stepBitOf s.cfg.dpcmBitOrder (s.rom.read (s.pat.toNat * s.cfg.patternBytes + k / 8)) k) := by
  have haddr : s.pat.toNat * s.cfg.patternBytes + k / 8 < s.cfg.romSize := by
    simpa only [Config.romSize, hv] using bitAddress_lt hp hk
  have hbyte : s.dpcmByte = some (s.rom.read (s.pat.toNat * s.cfg.patternBytes + k / 8)) :=
    State.romByte_eq_some.2 ⟨hcur ▸ haddr, hcur ▸ rfl⟩
  rw [State.dpcmBit, hbyte, Option.map_some, getLsbD_bitPosition, hcur]

/-- The element in force in the noise variant is `exec` of the byte at `(P, CUR)`, new step update or not. -/
theorem State.runElement_of_noise (hv : s.cfg.variant = .noise) :
    s.runElement new = exec (decodeStep8 (s.rom.read (s.pat.toNat * s.cfg.len + k))) s := by
  simp only [State.runElement, hv, State.stepByte_of_lt hp hcur hk hv, exec_decodeStep8]

/-- The element in force in the DPCM variant, with a new step update, is `exec` of the bit at `(P, CUR)`. -/
theorem State.runElement_of_dpcm (hv : s.cfg.variant = .dpcm) :
    s.runElement true = exec (decodeDpcm1 (stepBitOf s.cfg.dpcmBitOrder
      (s.rom.read (s.pat.toNat * s.cfg.patternBytes + k / 8)) k)) s := by
  simp only [State.runElement, hv, State.dpcmBit_of_lt hp hcur hk hv, exec_decodeDpcm1, if_true]

end Fetch

section Finish

variable {s : State} (hm : s.mph = .sampled) (hr : s.run = true) (hw : s.slatch.written = true)
  (hne : s.slatch.val ≠ 0#8)
include hm hr hw hne

/-- LOOP_FINISH in Playing with a step active: the step is consumed and its element runs (43_audio_output.md R122). -/
theorem exec_loopFinish_of_step :
    exec .loopFinish s = (State.consumeStep { s with mph := .ready }).runElement s.isNewStep := by
  simp only [exec, execLoopFinish, hm, hr, if_true, State.finishPlaying, hw, State.noteRead_true, if_neg hne]
  rfl

/-- Past the pattern's end the element runs at CUR = 0, with SUC and SEEN 1 (43_audio_output.md R124). -/
theorem exec_loopFinish_of_rollover (hseen : s.seen.written = true) (h : s.cfg.len < s.slatch.val.toNat) :
    exec .loopFinish s =
      State.runElement { s with mph := .ready, suc := .put 1, seen := .put 1, cur := .put 0 } s.isNewStep := by
  rw [exec_loopFinish_of_step hm hr hw hne, State.consumeStep_rolls (s := { s with mph := .ready }) h, hseen,
    State.noteRead_true]

/-- Inside the pattern the element runs at CUR = s - 1, with SEEN the sampled value (43_audio_output.md R125). -/
theorem exec_loopFinish_of_follow (hseen : s.seen.written = true) (h : s.slatch.val.toNat ≤ s.cfg.len) :
    exec .loopFinish s =
      State.runElement { s with mph := .ready, seen := .put s.slatch.val, cur := .put (s.slatch.val - 1) }
        s.isNewStep := by
  rw [exec_loopFinish_of_step hm hr hw hne,
    State.consumeStep_follows (s := { s with mph := .ready }) (Nat.not_lt.2 h), hseen, State.noteRead_true]

end Finish

/-- CUR = s - 1 does not wrap for a sampled value that is not 0 (43_audio_output.md R125). -/
theorem toNat_sub_one_of_ne_zero {x : Byte} (h : x ≠ 0#8) : (x - 1).toNat = x.toNat - 1 := by
  bv_omega

theorem State.isNewStep_of_ne {s : State} (h : s.slatch.val ≠ s.seen.val) : s.isNewStep = true := by
  simpa [State.isNewStep] using h

end Sys2Proof.Machine

namespace Sys2Proof

open Sys2Proof.Machine

/-- Settles O9: at CUR = 0 and at CUR = s - 1 the fetch lies inside the pattern, so inside the ROM. -/
theorem finishRunsFetchedStepByte : Obligations.FinishRunsFetchedStepByte := by
  intro s hv hr hm hw hseen hne hlen hp
  refine ⟨fun h => ?_, fun h => ?_⟩
  · rw [exec_loopFinish_of_rollover hm hr hw hne hseen h]
    exact State.runElement_of_noise (k := 0) hp rfl hlen hv
  · have hin := Nat.sub_one_lt_of_le (BitVec.toNat_pos_of_ne_zero hne) h
    rw [exec_loopFinish_of_follow hm hr hw hne hseen h]
    exact State.runElement_of_noise hp (toNat_sub_one_of_ne_zero hne) hin hv

/-- Settles O10: as in the noise variant, with the bit's byte and position in place of the byte. -/
theorem finishRunsFetchedStepBit : Obligations.FinishRunsFetchedStepBit := by
  intro s hv hr hm hw hseen hne hnew hlen hp
  have hnew := State.isNewStep_of_ne hnew
  refine ⟨fun h => ?_, fun h => ?_⟩
  · rw [exec_loopFinish_of_rollover hm hr hw hne hseen h, hnew]
    exact State.runElement_of_dpcm (k := 0) hp rfl hlen hv
  · have hin := Nat.sub_one_lt_of_le (BitVec.toNat_pos_of_ne_zero hne) h
    rw [exec_loopFinish_of_follow hm hr hw hne hseen h, hnew]
    exact State.runElement_of_dpcm hp (toNat_sub_one_of_ne_zero hne) hin hv

end Sys2Proof

/-! The noise sample's window (41_step_decoder.md R105) and the DPCM integrator (R107, 43_audio_output.md R129). -/

namespace Sys2Proof.Machine

/-- The masked bits are at most the mask (41_step_decoder.md R105). -/
theorem toNat_and_le_mask (x mask : Byte) : (x &&& mask).toNat ≤ mask.toNat := by
  rw [BitVec.toNat_and]
  exact Nat.and_le_right

/-- Where mask and offset sum to at most 255, the sample is the exact sum (41_step_decoder.md R105). -/
theorem toNat_ampl (r : Word16) {mask off : Byte} (h : mask.toNat + off.toNat ≤ 255) :
    (ampl r mask off).toNat = (r.extractLsb' 0 8 &&& mask).toNat + off.toNat := by
  have hx := toNat_and_le_mask (r.extractLsb' 0 8) mask
  exact BitVec.toNat_add_of_lt (by omega)

/-- The amplitude moved by the delta of a step bit, as a sum modulo 256 (41_step_decoder.md R107). -/
theorem add_dpcmDeltaOf (c : Config) (a : Byte) (u : Bool) :
    a + dpcmDeltaOf c u =
      BitVec.ofNat 8 ((a.toNat + if u then c.dpcmDelta.toNat else 256 - c.dpcmDelta.toNat) % 256) := by
  apply BitVec.eq_of_toNat_eq
  cases u <;> simp [dpcmDeltaOf]

/-- A step bit in the DPCM variant with AMP written, as one state (43_audio_output.md R129). -/
theorem exec_decodeDpcm1_of_dpcm {s : State} (hv : s.cfg.variant = .dpcm) (hw : s.amp.written = true) (u : Bool) :
    exec (decodeDpcm1 u) s = .next { s with
      amp := .put (s.amp.val + dpcmDeltaOf s.cfg u), pwm := .put (s.amp.val + dpcmDeltaOf s.cfg u),
      writes := s.writes ++ [s.amp.val + dpcmDeltaOf s.cfg u] } := by
  rw [exec_decodeDpcm1, runStepBit_eq, State.inVariant_eq_next]
  refine ⟨hv, ?_⟩
  simp only [State.dpcmStage, hw, State.noteRead_true, State.writePwm]

end Sys2Proof.Machine

namespace Sys2Proof

open Sys2Proof.Machine

/-- Settles O31: mask and offset of the class sum to at most 255, and the masked bits lie between 0 and the mask. -/
theorem amplitudeStaysInWindow : Obligations.AmplitudeStaysInWindow := by
  intro c r v hwf
  have hexact := toNat_ampl r (((Config.wf_iff c).1 hwf).volume v)
  have hmask := toNat_and_le_mask (r.extractLsb' 0 8) (c.maskOf v)
  exact ⟨hexact, by omega, by omega⟩

/-- Settles O29: UP and DN are the two step bits, each moving AMP by its delta modulo 256. -/
theorem dpcmElementsMoveAmplitude : Obligations.DpcmElementsMoveAmplitude := by
  intro s hv hw
  have hmove (u : Bool) := exec_decodeDpcm1_of_dpcm hv hw u
  simp only [add_dpcmDeltaOf] at hmove
  exact ⟨hmove true, hmove false⟩

end Sys2Proof

/-! The tempo clock's events as equations: ISR by its enabling condition, and TEMPO_ADV between iterations
(42_tempo_clock.md R111 to R114). -/

namespace Sys2Proof.Machine

open Sys2Proof Sys2Proof.Safety

/-- ISR enabled and TIDX in the table: the interrupt is taken and the handler runs (42_tempo_clock.md R111, R112). -/
theorem exec_isr_of_enabled {s : State} {th : Word16} (hie : s.ie = true) (hpending : s.tovf.val = true)
    (hth : s.cfg.tempoTable[s.tidx.toNat]? = some th) :
    exec .isr s = .next ((s.noteRead s.tovf.written).takeInterrupt.tempoTick th) := by
  have hen : s.isrEnabled = true := by simp [State.isrEnabled, hie, hpending]
  have hthreshold : s.threshold = some th := hth
  simp only [exec, execIsr, hen, hthreshold, if_true]
  rfl

/-- ISR not enabled is refused by name (42_tempo_clock.md R111). -/
theorem exec_isr_of_not_enabled {s : State} (h : ¬ (s.ie = true ∧ s.tovf.val = true)) :
    exec .isr s = .refused .isrNotPending := by
  have hen : ¬ s.isrEnabled = true := by rwa [State.isrEnabled, Bool.and_eq_true]
  exact if_neg hen

/-- With ACC and SUC written the handler records no fault (10_state.md R41). -/
theorem State.tempoTick_faults_of_written {s : State} {th : Word16} (hacc : s.acc.written = true)
    (hsuc : s.suc.written = true) : (s.tempoTick th).faults = s.faults := by
  by_cases h : th ≤ s.acc.val + 1
  · simp [State.tempoTick_reaches h, hacc, hsuc]
  · simp [State.tempoTick_counts h, hacc]

/-- TEMPO_ADV between iterations, for any TIDX (42_tempo_clock.md R114). -/
theorem exec_tempoAdv_of_ready {s : State} (h : s.mph = .ready) :
    exec .tempoAdv s = .next { s with tidx := BitVec.ofNat 4 ((s.tidx.toNat + 1) % s.cfg.nTempo) } := by
  simp only [exec, execTempoAdv, h]

/-- An index modulo N_TEMPO fits TIDX's four bits (10_state.md R25). -/
theorem toNat_ofNat_mod_nTempo (c : Config) (n : Nat) : (BitVec.ofNat 4 (n % c.nTempo)).toNat = n % c.nTempo := by
  obtain ⟨hpos, hle⟩ := c.nTempo_pos
  have hlt : n % c.nTempo < c.nTempo := Nat.mod_lt n hpos
  rw [BitVec.toNat_ofNat, Nat.mod_eq_of_lt (by omega)]

/-- An index in range is its own residue modulo N_TEMPO. -/
theorem State.ofNat_tidx_mod_nTempo {s : State} (h : s.tidx.toNat < s.cfg.nTempo) :
    BitVec.ofNat 4 (s.tidx.toNat % s.cfg.nTempo) = s.tidx := by
  rw [Nat.mod_eq_of_lt h, BitVec.ofNat_toNat, BitVec.setWidth_eq]

/-- `k` TEMPO_ADV in a row step TIDX by `k` modulo N_TEMPO (42_tempo_clock.md R114). -/
theorem execAll_replicate_tempoAdv {s : State} (hm : s.mph = .ready) (hlt : s.tidx.toNat < s.cfg.nTempo) (k : Nat) :
    execAll (List.replicate k .tempoAdv) s =
      .next { s with tidx := BitVec.ofNat 4 ((s.tidx.toNat + k) % s.cfg.nTempo) } := by
  induction k with
  | zero => rw [Nat.add_zero, State.ofNat_tidx_mod_nTempo hlt]; rfl
  | succ k ih =>
    rw [List.replicate_succ', execAll_append_eq_next]
    refine ⟨_, ih, execAll_cons_eq_next.2 ⟨_, exec_tempoAdv_of_ready hm, ?_⟩⟩
    rw [execAll_nil, toNat_ofNat_mod_nTempo, Nat.mod_add_mod, Nat.add_assoc]

end Sys2Proof.Machine

namespace Sys2Proof

open Sys2Proof.Machine Sys2Proof.Safety

/-- Settles O13: the two clauses are the handler's two branches, and its frame and fault rule close the rest. -/
theorem isrServicesTick : Obligations.IsrServicesTick := by
  intro s th hie hpending hth
  refine ⟨_, exec_isr_of_enabled hie hpending hth, by simp, fun h => ?_, fun h => ?_, ?_, fun htovf hacc hsuc => ?_⟩
  · have hreach : th ≤ (s.noteRead s.tovf.written).takeInterrupt.acc.val + 1 := by simpa using BitVec.le_def.2 h
    simp [State.tempoTick_reaches hreach]
  · have hcount : ¬ th ≤ (s.noteRead s.tovf.written).takeInterrupt.acc.val + 1 := by
      simpa using mt BitVec.le_def.1 h
    simp [State.tempoTick_counts hcount]
  · apply State.ext <;> simp
  · rw [htovf, State.noteRead_true]
    exact State.tempoTick_faults_of_written hacc hsuc

/-- Settles O16: N_TEMPO steps add a whole turn, and with N_TEMPO = 1 one step is a whole turn. -/
theorem tempoAdvStepsIndex : Obligations.TempoAdvStepsIndex := by
  intro s hm hlt
  have hturn : execAll (List.replicate s.cfg.nTempo .tempoAdv) s = .next s := by
    rw [execAll_replicate_tempoAdv hm hlt, Nat.add_mod_right, State.ofNat_tidx_mod_nTempo hlt]
  refine ⟨⟨_, exec_tempoAdv_of_ready hm, toNat_ofNat_mod_nTempo _ _, rfl⟩, hturn, fun hv => ?_⟩
  have hone : s.cfg.nTempo = 1 := by rw [Config.nTempo, hv]
  rw [hone] at hturn
  obtain ⟨m, hexec, hnil⟩ := execAll_cons_eq_next.1 hturn
  exact hexec.trans hnil

/-- Settles O11: OVF has no condition and one write. -/
theorem ovfSetsPending : Obligations.OvfSetsPending := fun _ => rfl

/-- Settles O14: with TIDX in the table the handler has a threshold, so only the enabling condition decides. -/
theorem isrEnabledExactly : Obligations.IsrEnabledExactly := by
  intro s hlt
  refine ⟨⟨fun ⟨t, h⟩ => ?_, fun ⟨hie, hpending⟩ => ?_⟩, exec_isr_of_not_enabled⟩
  · obtain ⟨hie, hpending, -⟩ := execIsr_next h
    exact ⟨hie, hpending⟩
  · exact ⟨_, exec_isr_of_enabled hie hpending (List.getElem?_eq_getElem hlt)⟩

end Sys2Proof

/-! The audio output stage as equations: the two halves of an audio tick, the delay gate, and the DPCM variant's gate
(43_audio_output.md R121 to R130). -/

namespace Sys2Proof.Machine

open Sys2Proof

/-- LOOP_SAMPLE between iterations in Playing, SUC written or not (43_audio_output.md R121, 10_state.md R41). -/
theorem exec_loopSample_of_playing {s : State} (hm : s.mph = .ready) (hr : s.run = true) :
    exec .loopSample s =
      .next { s.noteRead s.suc.written with slatch := .put s.suc.val, mph := .sampled } := by
  simp only [exec, execLoopSample, hm, hr, if_true]

/-- LOOP_SAMPLE between iterations in Idle reads no register (43_audio_output.md R121). -/
theorem exec_loopSample_of_idle {s : State} (hm : s.mph = .ready) (hr : s.run = false) :
    exec .loopSample s = .next { s with mph := .sampled } := by
  simp only [exec, execLoopSample, hm, hr, Bool.false_eq_true, if_false]

/-- LOOP_SAMPLE inside an iteration is refused by name (43_audio_output.md R121). -/
theorem exec_loopSample_of_sampled {s : State} (hm : s.mph = .sampled) :
    exec .loopSample s = .refused .loopPhase := by
  simp only [exec, execLoopSample, hm]

/-- LOOP_FINISH inside an iteration in Playing goes on after `MPH <- READY` (43_audio_output.md R122). -/
theorem exec_loopFinish_of_playing {s : State} (hm : s.mph = .sampled) (hr : s.run = true) :
    exec .loopFinish s = State.finishPlaying { s with mph := .ready } := by
  simp only [exec, execLoopFinish, hm, hr, if_true]

/-- With no step yet SLATCH is read, and nothing more happens (43_audio_output.md R123). -/
theorem State.finishPlaying_of_no_step {s : State} (h : s.slatch.val = 0#8) :
    s.finishPlaying = .next (s.noteRead s.slatch.written) := by
  simp only [State.finishPlaying, State.noteRead_slatch, if_pos h]

theorem State.isNewStep_of_eq {s : State} (h : s.slatch.val = s.seen.val) : s.isNewStep = false := by
  simp [State.isNewStep, h]

/-- The DPCM variant fetches and runs nothing without a new step update (43_audio_output.md R130). -/
theorem State.runElement_of_not_new {s : State} (hv : s.cfg.variant = .dpcm) : s.runElement false = .next s := by
  simp only [State.runElement, hv, Bool.false_eq_true, if_false]

/-- In the DPCM variant with no new step update the step is consumed, SLATCH and SEEN written or not, and no element
runs (43_audio_output.md R122, R130). -/
theorem State.finishPlaying_of_not_new {s : State} (hv : s.cfg.variant = .dpcm) (hne : s.slatch.val ≠ 0#8)
    (hold : s.slatch.val = s.seen.val) :
    s.finishPlaying = .next (s.noteRead s.slatch.written).consumeStep := by
  have hnew : (s.noteRead s.slatch.written).isNewStep = false := State.isNewStep_of_eq (by simpa using hold)
  simp only [State.finishPlaying, State.noteRead_slatch, if_neg hne, hnew]
  exact State.runElement_of_not_new (by simpa using hv)

/-- The gate fires on a written RNG that is not 0: one state, with no fault recorded (43_audio_output.md R127). -/
theorem State.noiseStage_fires_of_rng_ne_zero {s : State} {p : StepParams} (hgate : p.dly ≤ s.dctr.val)
    (hdctr : s.dctr.written = true) (hrng : s.rng.written = true) (hne : s.rng.val ≠ 0#16) :
    s.noiseStage p =
      { s with
        dctr := .put 0
        rng := .put (advance s.cfg.lowresForm s.rng.val p.hi)
        pwm := .put (ampl (advance s.cfg.lowresForm s.rng.val p.hi) p.mask p.off)
        writes := s.writes ++ [ampl (advance s.cfg.lowresForm s.rng.val p.hi) p.mask p.off] } := by
  rw [State.noiseStage_fires hgate, State.emitNoise_of_rng_written (by simpa using hrng)]
  simp [hdctr, hne]

/-- The gate does not fire on a written DCTR: DCTR counts, with no fault recorded (43_audio_output.md R128). -/
theorem State.noiseStage_holds_of_dctr_written {s : State} {p : StepParams} (hgate : s.dctr.val < p.dly)
    (hdctr : s.dctr.written = true) : s.noiseStage p = { s with dctr := .put (s.dctr.val + 1) } := by
  rw [State.noiseStage_holds (BitVec.not_le.2 hgate), hdctr, State.noteRead_true]

end Sys2Proof.Machine

namespace Sys2Proof

open Sys2Proof.Machine

/-- Settles O20: Playing, Idle and inside an iteration are the event's three branches, and a written SUC is no fault. -/
theorem loopSampleReadsOnce : Obligations.LoopSampleReadsOnce := by
  refine fun s => ⟨fun hm hr hsuc => ?_, exec_loopSample_of_idle, exec_loopSample_of_sampled⟩
  rw [exec_loopSample_of_playing hm hr, hsuc, State.noteRead_true]

/-- Settles O24: the one register read is SLATCH, which has been written. -/
theorem finishBeforeFirstStep : Obligations.FinishBeforeFirstStep := by
  intro s hm hr hw hzero
  rw [exec_loopFinish_of_playing hm hr, State.finishPlaying_of_no_step (s := { s with mph := .ready }) hzero, hw,
    State.noteRead_true]

/-- Settles O25: both elements run the gate that fires on a non-zero state, each with its own width. -/
theorem noiseGateFires : Obligations.NoiseGateFires := by
  intro s v d hnoise hdctr hrng hne hgate
  obtain ⟨hHi, hLo⟩ := exec_step_of_noise hnoise v d
  have hfires (hi : Bool) := State.noiseStage_fires_of_rng_ne_zero (p := stepParams s.cfg hi v d) hgate hdctr hrng hne
  exact ⟨hHi.trans (congrArg _ (hfires true)), hLo.trans (congrArg _ (hfires false))⟩

/-- Settles O26: both elements run the gate that does not fire, which does not look at the width. -/
theorem noiseGateHolds : Obligations.NoiseGateHolds := by
  intro s v d hnoise hdctr hgate
  obtain ⟨hHi, hLo⟩ := exec_step_of_noise hnoise v d
  have hholds (hi : Bool) := State.noiseStage_holds_of_dctr_written (p := stepParams s.cfg hi v d) hgate hdctr
  exact ⟨hHi.trans (congrArg _ (hholds true)), hLo.trans (congrArg _ (hholds false))⟩

/-- Settles O30: with no step yet only SLATCH is read, and else the step is consumed and its element does not run. -/
theorem dpcmGateHolds : Obligations.DpcmGateHolds := by
  intro s hv hm hr hold
  refine ⟨?_, fun hw hseen hne h => ?_⟩
  · rw [exec_loopFinish_of_playing hm hr]
    by_cases hzero : s.slatch.val = 0#8
    · exact ⟨_, State.finishPlaying_of_no_step hzero, by simp⟩
    · exact ⟨_, State.finishPlaying_of_not_new hv hzero hold, by simp⟩
  · rw [exec_loopFinish_of_follow hm hr hw hne hseen h, State.isNewStep_of_eq hold]
    exact State.runElement_of_not_new hv

end Sys2Proof

/-! The control commands as equations: each command between iterations, in Idle and in Playing
(44_control_commands.md R140 to R145). -/

namespace Sys2Proof.Machine

open Sys2Proof

section Commands

variable {s : State} (hm : s.mph = .ready)
include hm

/-- START in Idle resets the sequencer, then enables playback (44_control_commands.md R141). -/
theorem exec_start_of_idle (hr : s.run = false) : exec .start s = .next s.resetSequencer.enterPlaying := by
  simp only [exec, execStart, hm, hr, Bool.false_eq_true, if_false]

/-- START in Playing (44_control_commands.md R142). -/
theorem exec_start_of_playing (hr : s.run = true) : exec .start s = .next s := by
  simp only [exec, execStart, hm, hr, if_true]

/-- STOP in Playing disables playback, then silences the output (44_control_commands.md R143). -/
theorem exec_stop_of_playing (hr : s.run = true) : exec .stop s = .next s.enterIdle.silence := by
  simp only [exec, execStop, hm, hr, if_true]

/-- STOP in Idle (44_control_commands.md R144). -/
theorem exec_stop_of_idle (hr : s.run = false) : exec .stop s = .next s := by
  simp only [exec, execStop, hm, hr, Bool.false_eq_true, if_false]

/-- PATTERN_LATCH in Idle and in Playing (44_control_commands.md R145). -/
theorem exec_patternLatch_of_ready (n : BitVec 4) :
    exec (.patternLatch n) s = .next { s with pat := BitVec.ofNat 4 (min n.toNat (s.cfg.npat - 1)) } := by
  simp only [exec, execPatternLatch, hm]

end Commands

/-- A number clamped to at most the operand `n` fits P's four bits, whatever the clamp (10_state.md R32). -/
theorem toNat_ofNat_min_toNat (n : BitVec 4) (k : Nat) : (BitVec.ofNat 4 (min n.toNat k)).toNat = min n.toNat k := by
  rw [BitVec.toNat_ofNat, Nat.mod_eq_of_lt ((Nat.min_le_left _ _).trans_lt n.isLt)]

end Sys2Proof.Machine

namespace Sys2Proof

open Sys2Proof.Machine

/-- Settles O42: the reset followed by the enabling of playback is the one record update. -/
theorem startFromIdle : Obligations.StartFromIdle :=
  fun _ hm hr => exec_start_of_idle hm hr

/-- Settles O43: these are the branches of START and STOP that make no transition. -/
theorem repeatedCommandsChangeNothing : Obligations.RepeatedCommandsChangeNothing :=
  fun _ hm => ⟨exec_start_of_playing hm, exec_stop_of_idle hm⟩

/-- Settles O44: the disabling of playback followed by the silence is the one record update. -/
theorem stopFromPlaying : Obligations.StopFromPlaying :=
  fun _ hm hr => exec_stop_of_playing hm hr

/-- Settles O45: the latched value is at most the operand, so none of it is cut off in P. -/
theorem patternLatchClamps : Obligations.PatternLatchClamps :=
  fun s n hm => ⟨_, exec_patternLatch_of_ready hm n, toNat_ofNat_min_toNat n (s.cfg.npat - 1), rfl⟩

end Sys2Proof

/-! The three formats' decoders and the encoder (30_encoding.md R71 to R75). -/

namespace Sys2Proof

open Sys2Proof.Machine

/-- The resolution flag as a field of one bit (30_encoding.md R71). -/
theorem ofBool_resolutionField (b : Byte) : BitVec.ofBool (resolutionField b) = b.extractLsb' 7 1 := by
  apply BitVec.eq_of_getLsbD_eq
  intro i hi
  obtain rfl : i = 0 := by omega
  simp [resolutionField]

/-- A step byte is its resolution flag, its volume class and its delay index (30_encoding.md R71). -/
theorem append_fields_eq_stepByte (b : Byte) :
    (BitVec.ofBool (resolutionField b) ++ volumeField b) ++ delayField b = b :=
  calc (BitVec.ofBool (resolutionField b) ++ volumeField b) ++ delayField b
      = (b.extractLsb' 7 1 ++ b.extractLsb' 4 3) ++ b.extractLsb' 0 4 := by rw [ofBool_resolutionField]; rfl
    _ = b.extractLsb' 4 4 ++ b.extractLsb' 0 4 :=
      congrArg (· ++ _) (BitVec.extractLsb'_append_extractLsb'_eq_extractLsb' rfl)
    _ = b.extractLsb' 0 8 := BitVec.extractLsb'_append_extractLsb'_eq_extractLsb' rfl
    _ = b := BitVec.extractLsb'_eq_self

/-- The element a step byte decodes to encodes to that byte (30_encoding.md R73). -/
theorem encodeWord_decodeStep8 (b : Byte) : encodeWord (decodeStep8 b) = b := by
  have hb := append_fields_eq_stepByte b
  unfold decodeStep8
  split
  next h => rwa [h] at hb
  next h => rwa [Bool.eq_false_iff.2 h] at hb

theorem format_decodeStep8 (b : Byte) : (decodeStep8 b).format = .step8 := by
  unfold decodeStep8
  split <;> rfl

/-- The step bytes' decoder reads the word of each element back (30_encoding.md R71). -/
theorem decodeStep8_encodeWord (v : BitVec 3) (d : BitVec 4) :
    decodeStep8 (encodeWord (.stepLo v d)) = .stepLo v d ∧ decodeStep8 (encodeWord (.stepHi v d)) = .stepHi v d := by
  revert v d
  decide

/-- Whatever a word decodes to is an instruction of that format and that word (30_encoding.md R73, R74, R77). -/
theorem encode_of_decode {f : Format} {w : Byte} {i : Instr} (h : decode f w = .ok i) : encode i = (f, w) := by
  cases f with
  | step8 =>
    cases h
    exact Prod.ext (format_decodeStep8 w) (encodeWord_decodeStep8 w)
  | dpcm1 =>
    simp only [decode] at h
    split_ifs at h with h0 h1 <;> cases h
    · exact Prod.ext rfl h0.symm
    · exact Prod.ext rfl h1.symm
  | evt8 =>
    obtain ⟨hformat, hword⟩ := encodeWord_of_decodeEvt8 h
    exact Prod.ext hformat hword

theorem decode_encode_of_event {i : Instr} (hi : i.format = .evt8) : decode (encode i).1 (encode i).2 = .ok i := by
  rw [encode, hi]
  exact decodeEvt8_encodeWord hi

/-- Every instruction is read back from its encoding (30_encoding.md R71, R74, R77). -/
theorem decode_encode (i : Instr) : decode (encode i).1 (encode i).2 = .ok i := by
  cases i with
  | stepLo v d => exact congrArg Except.ok (decodeStep8_encodeWord v d).1
  | stepHi v d => exact congrArg Except.ok (decodeStep8_encodeWord v d).2
  | dn | up => rfl
  | ovf | isr | loopSample | loopFinish | start | stop | tempoAdv | patternLatch =>
    exact decode_encode_of_event rfl

/-- Flipping bit 7 of a step byte flips the resolution flag and no other field (30_encoding.md R73). -/
theorem fields_xor_bit7 (b : Byte) :
    resolutionField (b ^^^ 0x80) = !resolutionField b ∧ volumeField (b ^^^ 0x80) = volumeField b ∧
      delayField (b ^^^ 0x80) = delayField b := by
  refine ⟨?_, ?_, ?_⟩
  · simp [resolutionField]
  · rw [volumeField, BitVec.extractLsb'_xor]
    exact BitVec.xor_zero
  · rw [delayField, BitVec.extractLsb'_xor]
    exact BitVec.xor_zero

/-- Settles O4: the one direction by the instruction, the other by the format. -/
theorem decodeEncodeAgree : Obligations.DecodeEncodeAgree :=
  ⟨decode_encode, fun _ _ _ => encode_of_decode⟩

/-- Settles O5: the fields make up the byte, and the record takes its delay and window from the two lower ones. -/
theorem stepByteDecodeTotal : Obligations.StepByteDecodeTotal := by
  intro c b
  obtain ⟨hflag, hvolume, hdelay⟩ := fields_xor_bit7 b
  refine ⟨encodeWord_decodeStep8 b, ?_⟩
  rw [decodeStep, hflag, hvolume, hdelay]
  rfl

/-- Settles O2: each word is the encoding of its element, which the decoder reads back. -/
theorem stepElementWordsDecode : Obligations.StepElementWordsDecode :=
  ⟨decode_encode (.stepHi 3 5), decode_encode (.stepLo 0 0), decode_encode (.stepLo 5 12),
    decode_encode (.stepHi 7 15), decode_encode .up, decode_encode .dn⟩

end Sys2Proof

/-! What a step is: the instance check, then the waiting word's event or one of the free choice (00_scope.md R9,
20_memory.md R61). -/

namespace Sys2Proof.Machine

open Sys2Proof

/-- The step of a well-formed instance whose next word spells an event. -/
theorem step_of_decodeEvt8_ok {s : State} {w : Byte} {rest : List Byte} {i : Instr} (hwf : s.InstanceWf)
    (hs : s.stream = w :: rest) (hi : decodeEvt8 w = .ok i) : step s = exec i { s with stream := rest } := by
  simp only [step, if_pos hwf, hs, hi]

/-- The step of a well-formed instance where no word waits. -/
theorem step_of_stream_nil {s : State} (hwf : s.InstanceWf) (hs : s.stream = []) :
    step s = exec s.freeEvent { s with choices := s.choices + 1 } := by
  simp only [step, if_pos hwf, hs]

theorem step_of_not_instanceWf {s : State} (h : ¬ s.InstanceWf) : step s = .refused .configNotWf := by
  rw [step, if_neg h]

/-- The enabling condition of each event (42_tempo_clock.md R110, R111, 60_exceptions.md R152); no step element is an
event. -/
def State.Enables (s : State) : Instr → Prop
  | .ovf => True
  | .isr => s.ie = true ∧ s.tovf.val = true
  | .loopFinish => s.mph = .sampled
  | .loopSample | .start | .stop | .tempoAdv | .patternLatch _ => s.mph = .ready
  | .stepLo _ _ | .stepHi _ _ | .dn | .up => False

theorem patternLatch_mem_patternLatches (n : BitVec 4) : Instr.patternLatch n ∈ patternLatches :=
  List.mem_map.2 ⟨n.toNat, List.mem_range.2 n.isLt, by rw [BitVec.ofNat_toNat, BitVec.setWidth_eq]⟩

theorem mem_patternLatches_iff {i : Instr} : i ∈ patternLatches ↔ ∃ n, i = .patternLatch n := by
  refine ⟨fun h => ?_, fun ⟨n, hn⟩ => hn ▸ patternLatch_mem_patternLatches n⟩
  obtain ⟨n, -, rfl⟩ := List.mem_map.1 h
  exact ⟨_, rfl⟩

/-- The enabled events are those whose enabling condition holds (20_memory.md R61). -/
theorem State.mem_enabled_iff {s : State} {i : Instr} : i ∈ s.enabled ↔ s.Enables i := by
  simp only [State.enabled, State.isrEnabled, List.mem_append]
  cases hm : s.mph <;> cases i <;> simp [State.Enables, mainEvents, mem_patternLatches_iff, hm]

theorem State.Enables.format_eq_evt8 {s : State} {i : Instr} (h : s.Enables i) : i.format = .evt8 := by
  cases i with
  | stepLo | stepHi | dn | up => exact h.elim
  | ovf | isr | loopSample | loopFinish | start | stop | tempoAdv | patternLatch => rfl

/-- The free choice is one of the enabled events, which are never none (42_tempo_clock.md R110). -/
theorem State.freeEvent_mem_enabled (s : State) : s.freeEvent ∈ s.enabled := by
  have hpos : 0 < s.enabled.length := List.length_pos_of_mem (a := .ovf) ((mem_enabled_iff (i := .ovf)).2 trivial)
  have hlt := Nat.mod_lt (Config.freeChoice s.choices) hpos
  rw [State.freeEvent, List.getElem?_eq_getElem hlt, Option.getD_some]
  exact List.getElem_mem hlt

/-- Every way a step answers: the instance is refused, the word is, or an event runs on the state with the model's own two
fields moved on; with no word waiting it is an enabled event. -/
theorem step_cases (s : State) :
    (¬ s.InstanceWf ∧ step s = .refused .configNotWf) ∨
    (s.InstanceWf ∧ s.stream ≠ [] ∧ step s = .refused .reservedEvent) ∨
    (s.InstanceWf ∧ ∃ i st ch, i.format = .evt8 ∧ (s.stream = [] → s.Enables i) ∧
      step s = exec i { s with stream := st, choices := ch }) := by
  by_cases hwf : s.InstanceWf
  · cases hs : s.stream with
    | nil =>
      have hi := State.mem_enabled_iff.1 s.freeEvent_mem_enabled
      exact .inr (.inr ⟨hwf, _, s.stream, _, hi.format_eq_evt8, fun _ => hi, step_of_stream_nil hwf hs⟩)
    | cons w rest =>
      cases hw : decodeEvt8 w with
      | error e => exact .inr (.inl ⟨hwf, by simp, step_of_decodeEvt8_error hwf hs hw⟩)
      | ok i =>
        exact .inr (.inr ⟨hwf, i, rest, s.choices, (encodeWord_of_decodeEvt8 hw).1, by simp,
          step_of_decodeEvt8_ok hwf hs hw⟩)
  · exact .inl ⟨hwf, step_of_not_instanceWf hwf⟩

/-- The one way a step answers a next state: an event runs. -/
theorem step_next {s t : State} (h : step s = .next t) :
    ∃ i st ch, i.format = .evt8 ∧ exec i { s with stream := st, choices := ch } = .next t := by
  rcases step_cases s with ⟨-, hc⟩ | ⟨-, -, hc⟩ | ⟨-, i, st, ch, hi, -, hc⟩
  · cases hc.symm.trans h
  · cases hc.symm.trans h
  · exact ⟨i, st, ch, hi, hc.symm.trans h⟩

end Sys2Proof.Machine

namespace Sys2Proof

open Sys2Proof.Machine

/-- Settles O6: the decoder reads the word at the head of the stream back as the event. -/
theorem stepRunsEventAtStreamHead : Obligations.StepRunsEventAtStreamHead :=
  fun _ _ _ hwf hi hs => step_of_decodeEvt8_ok hwf hs (decodeEvt8_encodeWord hi)

/-- Settles O7: the event is the free choice. -/
theorem stepRunsAnEnabledEvent : Obligations.StepRunsAnEnabledEvent :=
  fun s hwf hs => ⟨s.freeEvent, s.freeEvent_mem_enabled, step_of_stream_nil hwf hs⟩

/-- Settles O8: the instance is checked before anything else. -/
theorem illFormedInstanceRefused : Obligations.IllFormedInstanceRefused :=
  fun _ => step_of_not_instanceWf

end Sys2Proof

/-! What an instruction writes, what it leaves, and how it moves FAULT and PWM (10_state.md R39, 60_exceptions.md R150,
00_scope.md R15). -/

namespace Sys2Proof.Machine

open Sys2Proof Sys2Proof.Safety

/-- The state on which LOOP_FINISH in Playing runs the element in force: MPH is READY, and the sampled step is consumed
(43_audio_output.md R122). -/
def State.consumed (s : State) : State := (State.noteRead { s with mph := .ready } s.slatch.written).consumeStep

@[simp] theorem State.consumed_cfg (s : State) : s.consumed.cfg = s.cfg := by simp [State.consumed]

/-- Every way LOOP_FINISH answers a next state, down to the stage that runs (43_audio_output.md R122, R123, R126, R129,
R130). -/
theorem exec_loopFinish_next {s t : State} (h : exec .loopFinish s = .next t) :
    s.mph = .sampled ∧
    ((s.run = false ∧ t = State.writePwm { s with mph := .ready } s.cfg.quiescent) ∨
     (s.run = true ∧ s.slatch.val = 0#8 ∧ t = State.noteRead { s with mph := .ready } s.slatch.written) ∨
     (s.run = true ∧ s.slatch.val ≠ 0#8 ∧ s.cfg.variant = .noise ∧
       ∃ b, t = s.consumed.noiseStage (decodeStep s.cfg b)) ∨
     (s.run = true ∧ s.slatch.val ≠ 0#8 ∧ s.cfg.variant = .dpcm ∧
       ((∃ u, t = s.consumed.dpcmStage u) ∨ t = s.consumed))) := by
  obtain ⟨hm, ⟨hr, rfl⟩ | ⟨hr, h⟩⟩ := execLoopFinish_next h
  · exact ⟨hm, .inl ⟨hr, rfl⟩⟩
  refine ⟨hm, .inr ?_⟩
  rcases State.finishPlaying_next h with ⟨hzero, rfl⟩ | ⟨hne, h⟩
  · exact .inl ⟨hr, hzero, rfl⟩
  refine .inr ?_
  rcases State.runElement_next (s := s.consumed) h with ⟨hv, b, -, rfl⟩ | ⟨hv, -, u, -, rfl⟩ | ⟨hv, -, rfl⟩ <;>
    rw [State.consumed_cfg] at hv
  · exact .inl ⟨hr, hne, hv, b, by rw [State.consumed_cfg]⟩
  · exact .inr ⟨hr, hne, hv, .inl ⟨u, rfl⟩⟩
  · exact .inr ⟨hr, hne, hv, .inr rfl⟩

/-- The ownership table, instruction by instruction (10_state.md R39). -/
theorem exec_same {i : Instr} {s t : State} (h : exec i s = .next t) {p : Part} (hp : p ∉ mayWrite i) : Same p s t := by
  cases i with
  | stepLo | stepHi | dn | up => obtain ⟨-, rfl⟩ := State.inVariant_eq_next.1 h; cases p <;> simp_all [Same, mayWrite]
  | ovf => cases h; cases p <;> simp_all [Same, mayWrite]
  | isr => obtain ⟨-, -, th, -, rfl⟩ := execIsr_next h; cases p <;> simp_all [Same, mayWrite]
  | loopSample =>
    obtain ⟨-, ⟨-, rfl⟩ | ⟨-, rfl⟩⟩ := execLoopSample_next h <;> cases p <;> simp_all [Same, mayWrite]
  | loopFinish =>
    obtain ⟨-, ⟨-, rfl⟩ | ⟨-, -, rfl⟩ | ⟨-, -, -, b, rfl⟩ | ⟨-, -, -, ⟨u, rfl⟩ | rfl⟩⟩ := exec_loopFinish_next h <;>
      cases p <;> simp_all [Same, mayWrite, State.consumed]
  | start => obtain ⟨-, ⟨-, rfl⟩ | ⟨-, rfl⟩⟩ := execStart_next h <;> cases p <;> simp_all [Same, mayWrite]
  | stop => obtain ⟨-, ⟨-, rfl⟩ | ⟨-, rfl⟩⟩ := execStop_next h <;> cases p <;> simp_all [Same, mayWrite]
  | tempoAdv => obtain ⟨-, rfl⟩ := execTempoAdv_next h; cases p <;> simp_all [Same, mayWrite]
  | patternLatch n => obtain ⟨-, rfl⟩ := execPatternLatch_next h; cases p <;> simp_all [Same, mayWrite]

/-! FAULT along one event. -/

/-- FAULT keeps every name it held (60_exceptions.md R150). -/
def FaultSet.Keeps (f g : FaultSet) : Prop :=
  (f.lfsrZero = true → g.lfsrZero = true) ∧ (f.uninitRead = true → g.uninitRead = true)

theorem FaultSet.Keeps.refl (f : FaultSet) : f.Keeps f := ⟨id, id⟩

theorem FaultSet.Keeps.trans {f g k : FaultSet} (h₁ : f.Keeps g) (h₂ : g.Keeps k) : f.Keeps k :=
  ⟨h₂.1 ∘ h₁.1, h₂.2 ∘ h₁.2⟩

theorem State.noteRead_keeps (s : State) (w : Bool) : s.faults.Keeps (s.noteRead w).faults := by
  cases w with
  | true => exact .refl _
  | false => exact FaultSet.insert_keeps _ _

theorem State.noteZero_keeps (s : State) (z : Bool) : s.faults.Keeps (s.noteZero z).faults := by
  cases z with
  | true => exact FaultSet.insert_keeps _ _
  | false => exact .refl _

theorem State.emitNoise_keeps (s : State) (p : StepParams) : s.faults.Keeps (s.emitNoise p).faults :=
  (s.noteRead_keeps _).trans (State.noteZero_keeps _ _)

theorem State.noiseStage_keeps (s : State) (p : StepParams) : s.faults.Keeps (s.noiseStage p).faults := by
  by_cases h : p.dly ≤ s.dctr.val
  · rw [State.noiseStage_fires h]
    exact (s.noteRead_keeps _).trans (State.emitNoise_keeps { s.noteRead s.dctr.written with dctr := .put 0 } p)
  · rw [State.noiseStage_holds h]
    exact s.noteRead_keeps _

theorem State.dpcmStage_keeps (s : State) (u : Bool) : s.faults.Keeps (s.dpcmStage u).faults :=
  s.noteRead_keeps _

theorem State.tempoTick_keeps (s : State) (th : Word16) : s.faults.Keeps (s.tempoTick th).faults := by
  by_cases h : th ≤ s.acc.val + 1
  · rw [State.tempoTick_reaches h]
    exact (s.noteRead_keeps _).trans (State.noteRead_keeps _ _)
  · rw [State.tempoTick_counts h]
    exact s.noteRead_keeps _

/-- The cursor reads SEEN in both of its cases (43_audio_output.md R122). -/
theorem State.consumeStep_faults (s : State) : s.consumeStep.faults = (s.noteRead s.seen.written).faults := by
  by_cases h : s.cfg.len < s.slatch.val.toNat
  · rw [State.consumeStep_rolls h]
  · rw [State.consumeStep_follows h]

theorem State.consumed_keeps (s : State) : s.faults.Keeps s.consumed.faults := by
  rw [State.consumed, State.consumeStep_faults]
  exact (State.noteRead_keeps { s with mph := .ready } _).trans (State.noteRead_keeps _ _)

/-- No instruction removes a name from FAULT. -/
theorem exec_keeps_faults {i : Instr} {s t : State} (h : exec i s = .next t) : s.faults.Keeps t.faults := by
  by_cases hp : Part.faults ∈ mayWrite i
  · cases i with
    | stepLo | stepHi => obtain ⟨-, rfl⟩ := State.inVariant_eq_next.1 h; exact s.noiseStage_keeps _
    | dn | up => obtain ⟨-, rfl⟩ := State.inVariant_eq_next.1 h; exact s.dpcmStage_keeps _
    | isr =>
      obtain ⟨-, -, th, -, rfl⟩ := execIsr_next h
      exact (s.noteRead_keeps _).trans (State.tempoTick_keeps (s.noteRead s.tovf.written).takeInterrupt th)
    | loopSample =>
      obtain ⟨-, ⟨-, rfl⟩ | ⟨-, rfl⟩⟩ := execLoopSample_next h
      · exact s.noteRead_keeps _
      · exact .refl _
    | loopFinish =>
      obtain ⟨-, ⟨-, rfl⟩ | ⟨-, -, rfl⟩ | ⟨-, -, -, b, rfl⟩ | ⟨-, -, -, ⟨u, rfl⟩ | rfl⟩⟩ := exec_loopFinish_next h
      · exact .refl _
      · exact State.noteRead_keeps { s with mph := .ready } _
      · exact s.consumed_keeps.trans (State.noiseStage_keeps _ _)
      · exact s.consumed_keeps.trans (State.dpcmStage_keeps _ _)
      · exact s.consumed_keeps
    | ovf | start | stop | tempoAdv | patternLatch => simp [mayWrite] at hp
  · have hsame : t.faults = s.faults := exec_same h hp
    rw [hsame]
    exact .refl _

/-! PWM along one event. -/

/-- Between the two states PWM was not written, or once, and that write is observed (00_scope.md R15). -/
def State.WritesPwmOnce (s t : State) : Prop :=
  (t.writes = s.writes ∧ t.pwm = s.pwm) ∨ ∃ v, t.writes = s.writes ++ [v] ∧ t.pwm = .put v

theorem State.noiseStage_writesPwmOnce (s : State) (p : StepParams) : s.WritesPwmOnce (s.noiseStage p) := by
  by_cases h : p.dly ≤ s.dctr.val
  · rw [State.noiseStage_fires h]
    exact .inr ⟨_, by rw [State.emitNoise_writes, State.noteRead_writes], by rw [State.emitNoise_pwm]⟩
  · rw [State.noiseStage_holds h]
    exact .inl ⟨s.noteRead_writes _, s.noteRead_pwm _⟩

theorem State.dpcmStage_writesPwmOnce (s : State) (u : Bool) : s.WritesPwmOnce (s.dpcmStage u) :=
  .inr ⟨_, s.dpcmStage_writes u, s.dpcmStage_pwm u⟩

@[simp] theorem State.consumed_writes (s : State) : s.consumed.writes = s.writes := by simp [State.consumed]
@[simp] theorem State.consumed_pwm (s : State) : s.consumed.pwm = s.pwm := by simp [State.consumed]

/-- Consuming a step writes no PWM, so the element's writes are all there are. -/
theorem State.WritesPwmOnce.of_consumed {s t : State} (h : s.consumed.WritesPwmOnce t) : s.WritesPwmOnce t := by
  simpa only [State.WritesPwmOnce, State.consumed_writes, State.consumed_pwm] using h

theorem exec_writesPwmOnce {i : Instr} {s t : State} (h : exec i s = .next t) : s.WritesPwmOnce t := by
  by_cases hp : Part.pwm ∈ mayWrite i
  · cases i with
    | stepLo | stepHi => obtain ⟨-, rfl⟩ := State.inVariant_eq_next.1 h; exact s.noiseStage_writesPwmOnce _
    | dn | up => obtain ⟨-, rfl⟩ := State.inVariant_eq_next.1 h; exact s.dpcmStage_writesPwmOnce _
    | stop =>
      obtain ⟨-, ⟨-, rfl⟩ | ⟨-, rfl⟩⟩ := execStop_next h
      · exact .inr ⟨_, State.silence_writes _, State.silence_pwm _⟩
      · exact .inl ⟨rfl, rfl⟩
    | loopFinish =>
      obtain ⟨-, ⟨-, rfl⟩ | ⟨-, -, rfl⟩ | ⟨-, -, -, b, rfl⟩ | ⟨-, -, -, ⟨u, rfl⟩ | rfl⟩⟩ := exec_loopFinish_next h
      · exact .inr ⟨_, State.writePwm_writes _ _, State.writePwm_pwm _ _⟩
      · exact .inl ⟨State.noteRead_writes _ _, State.noteRead_pwm _ _⟩
      · exact (State.noiseStage_writesPwmOnce _ _).of_consumed
      · exact (State.dpcmStage_writesPwmOnce _ _).of_consumed
      · exact .inl ⟨s.consumed_writes, s.consumed_pwm⟩
    | ovf | isr | loopSample | start | tempoAdv | patternLatch => simp [mayWrite] at hp
  · have hwrites : Part.writes ∉ mayWrite i := by cases i <;> simp_all [mayWrite]
    exact .inl ⟨exec_same h hwrites, exec_same h hp⟩

theorem mem_mayWrite_cfg_rom (i : Instr) : Part.cfg ∉ mayWrite i ∧ Part.rom ∉ mayWrite i := by
  cases i <;> simp [mayWrite]

/-- No instruction writes the configuration or the ROM (20_memory.md R64, 00_scope.md R8). -/
theorem exec_cfg_rom {i : Instr} {s t : State} (h : exec i s = .next t) : t.cfg = s.cfg ∧ t.rom = s.rom :=
  ⟨exec_same h (mem_mayWrite_cfg_rom i).1, exec_same h (mem_mayWrite_cfg_rom i).2⟩

end Sys2Proof.Machine

namespace Sys2Proof

open Sys2Proof.Machine Sys2Proof.Safety

/-- Settles O51: the ROM is in no instruction's row, so every read of it is as before. -/
theorem instructionsRespectOwnership : Obligations.InstructionsRespectOwnership :=
  fun _ _ _ h => ⟨fun _ => exec_same h, fun a => by rw [(exec_cfg_rom h).2]⟩

/-- Settles O52: a step is an event on a state with the same configuration and ROM. -/
theorem stepKeepsProgramAndConfig : Obligations.StepKeepsProgramAndConfig := by
  intro s t h
  obtain ⟨i, st, ch, -, hexec⟩ := step_next h
  obtain ⟨hcfg, hrom⟩ := exec_cfg_rom hexec
  exact ⟨hcfg, hrom, fun a => by rw [hrom]⟩

/-- Settles O53: the element that runs is one of the instance's own variant, and no other part of LOOP_FINISH writes these
registers. -/
theorem finishLeavesOtherVariantRegisters : Obligations.FinishLeavesOtherVariantRegisters := by
  intro s t h
  obtain ⟨-, ⟨-, rfl⟩ | ⟨-, -, rfl⟩ | ⟨-, -, hv, b, rfl⟩ | ⟨-, -, hv, ⟨u, rfl⟩ | rfl⟩⟩ := exec_loopFinish_next h
  · simp
  · simp
  · simp [State.consumed, hv]
  · simp [State.consumed, hv]
  · simp [State.consumed]

/-- Settles O54: a step is an event on a state with the same FAULT. -/
theorem faultsAreNeverCleared : Obligations.FaultsAreNeverCleared := by
  intro s t h
  obtain ⟨i, st, ch, -, hexec⟩ := step_next h
  exact exec_keeps_faults (s := { s with stream := st, choices := ch }) hexec

/-- Settles O55: at most one of an instruction's stages writes PWM. -/
theorem pwmWritesAreObserved : Obligations.PwmWritesAreObserved :=
  fun _ _ _ => exec_writesPwmOnce

end Sys2Proof

/-! Which events complete and which are refused by name, and the recording of an unwritten read (60_exceptions.md R150,
R152, 10_state.md R41). -/

namespace Sys2Proof.Machine

open Sys2Proof

/-! The phase and the variant. -/

section Sampled

/-! Inside an iteration each command is refused by name (44_control_commands.md R140). -/

variable {s : State} (hm : s.mph = .sampled)
include hm

theorem exec_start_of_sampled : exec .start s = .refused .loopPhase := by simp only [exec, execStart, hm]

theorem exec_stop_of_sampled : exec .stop s = .refused .loopPhase := by simp only [exec, execStop, hm]

theorem exec_tempoAdv_of_sampled : exec .tempoAdv s = .refused .loopPhase := by simp only [exec, execTempoAdv, hm]

theorem exec_patternLatch_of_sampled (n : BitVec 4) : exec (.patternLatch n) s = .refused .loopPhase := by
  simp only [exec, execPatternLatch, hm]

end Sampled

/-- Between iterations LOOP_FINISH is refused by name (43_audio_output.md R122). -/
theorem exec_loopFinish_of_ready {s : State} (hm : s.mph = .ready) : exec .loopFinish s = .refused .loopPhase := by
  simp only [exec, execLoopFinish, hm]

theorem State.inVariant_of_ne {s t : State} {v : Variant} (h : s.cfg.variant ≠ v) :
    s.inVariant v t = .refused .wrongVariant := if_neg h

/-- In the DPCM variant a step bit answers the integrator's state (43_audio_output.md R129). -/
theorem exec_bit_of_dpcm {s : State} (h : s.cfg.variant = .dpcm) :
    exec .up s = .next (s.dpcmStage true) ∧ exec .dn s = .next (s.dpcmStage false) :=
  ⟨State.inVariant_eq_next.2 ⟨h, rfl⟩, State.inVariant_eq_next.2 ⟨h, rfl⟩⟩

/-- LOOP_FINISH in Idle writes the quiescent level (43_audio_output.md R122). -/
theorem exec_loopFinish_of_idle {s : State} (hm : s.mph = .sampled) (hr : s.run = false) :
    exec .loopFinish s = .next (State.writePwm { s with mph := .ready } s.cfg.quiescent) := by
  simp only [exec, execLoopFinish, hm, hr, Bool.false_eq_true, if_false]

/-! LOOP_FINISH in Playing with a step active, SLATCH and SEEN written or not. -/

theorem exec_loopFinish_eq_runElement {s : State} (hm : s.mph = .sampled) (hr : s.run = true)
    (hne : s.slatch.val ≠ 0#8) : exec .loopFinish s = s.consumed.runElement s.isNewStep := by
  rw [exec_loopFinish_of_playing hm hr]
  simp only [State.finishPlaying, State.noteRead_slatch, if_neg hne, State.isNewStep, State.noteRead_seen]
  rfl

/-- CUR is inside the pattern after the step is consumed, on rollover or not (43_audio_output.md R124, R125). -/
theorem State.consumed_cur_lt {s : State} (hlen : 1 ≤ s.cfg.len) (hne : s.slatch.val ≠ 0#8) :
    s.consumed.cur.val.toNat < s.cfg.len := by
  rw [State.consumed]
  by_cases h : s.cfg.len < s.slatch.val.toNat
  · rw [State.consumeStep_rolls (by simpa using h)]
    exact hlen
  · rw [State.consumeStep_follows (by simpa using h)]
    have hpos := BitVec.toNat_pos_of_ne_zero hne
    have hcur := toNat_sub_one_of_ne_zero hne
    simp only [State.noteRead_slatch, Reg.put_val]
    omega

/-- With the cursor inside the image the element in force completes, and FAULT keeps its names (20_memory.md R54). -/
theorem State.runElement_completes {s : State} {new : Bool} (hp : s.pat.toNat < s.cfg.npat)
    (hcur : s.cur.val.toNat < s.cfg.len) : ∃ t, s.runElement new = .next t ∧ s.faults.Keeps t.faults := by
  cases hv : s.cfg.variant with
  | noise =>
    have hrun : s.runElement new = _ := State.runElement_of_noise hp rfl hcur hv
    rw [exec_decodeStep8, runStepByte_eq] at hrun
    exact ⟨_, hrun.trans (State.inVariant_eq_next.2 ⟨hv, rfl⟩), s.noiseStage_keeps _⟩
  | dpcm =>
    cases new with
    | false => exact ⟨s, State.runElement_of_not_new hv, .refl _⟩
    | true =>
      have hrun := State.runElement_of_dpcm hp rfl hcur hv
      rw [exec_decodeDpcm1, runStepBit_eq] at hrun
      exact ⟨_, hrun.trans (State.inVariant_eq_next.2 ⟨hv, rfl⟩), s.dpcmStage_keeps _⟩

/-- Inside an iteration in Playing LOOP_FINISH completes, and where a step is active it keeps what consuming it
recorded. -/
theorem exec_loopFinish_completes {s : State} (hm : s.mph = .sampled) (hr : s.run = true) (hlen : 1 ≤ s.cfg.len)
    (hp : s.pat.toNat < s.cfg.npat) :
    ∃ t, exec .loopFinish s = .next t ∧ (s.slatch.val ≠ 0#8 → s.consumed.faults.Keeps t.faults) := by
  by_cases hzero : s.slatch.val = 0#8
  · rw [exec_loopFinish_of_playing hm hr]
    exact ⟨_, State.finishPlaying_of_no_step hzero, fun hne => absurd hzero hne⟩
  · rw [exec_loopFinish_eq_runElement hm hr hzero]
    have hpat : s.consumed.pat = s.pat := by simp [State.consumed]
    obtain ⟨t, ht, hkeeps⟩ := State.runElement_completes (s := s.consumed) (new := s.isNewStep)
      (by rwa [hpat, State.consumed_cfg]) (by rw [State.consumed_cfg]; exact State.consumed_cur_lt hlen hzero)
    exact ⟨t, ht, fun _ => hkeeps⟩

/-! Reads of unwritten registers. -/

/-- Two reads record what one read of both would. -/
theorem State.noteRead_noteRead (s : State) (a b : Bool) : (s.noteRead a).noteRead b = s.noteRead (a && b) := by
  cases a <;> cases b <;> rfl

/-- FAULT after the handler: ACC is read always, SUC at the threshold (42_tempo_clock.md R112). -/
theorem State.tempoTick_faults (s : State) (th : Word16) :
    (s.tempoTick th).faults =
      (s.noteRead (s.acc.written && (!decide (th ≤ s.acc.val + 1) || s.suc.written))).faults := by
  by_cases h : th ≤ s.acc.val + 1
  · rw [State.tempoTick_reaches h, State.noteRead_noteRead, decide_eq_true h]
    rfl
  · rw [State.tempoTick_counts h, decide_eq_false h, Bool.not_false, Bool.true_or, Bool.and_true]

/-- FAULT after ISR's reads of TOVF, ACC and SUC (42_tempo_clock.md R111, R112). -/
theorem State.tempoTick_takeInterrupt_faults (s : State) (th : Word16) :
    ((s.noteRead s.tovf.written).takeInterrupt.tempoTick th).faults =
      (s.noteRead (s.tovf.written && (s.acc.written && (!decide (th ≤ s.acc.val + 1) || s.suc.written)))).faults := by
  simp only [State.tempoTick_faults, State.noteRead_faults, State.takeInterrupt_faults, State.takeInterrupt_acc,
    State.takeInterrupt_suc, State.noteRead_acc, State.noteRead_suc]
  cases s.tovf.written <;> simp [FaultSet.insert]

/-- FAULT after the cursor's reads of SLATCH and SEEN (43_audio_output.md R122). -/
theorem State.consumed_faults (s : State) :
    s.consumed.faults = (s.noteRead (s.slatch.written && s.seen.written)).faults := by
  rw [State.consumed, State.consumeStep_faults, State.noteRead_seen, State.noteRead_noteRead, State.noteRead_faults,
    State.noteRead_faults]

theorem State.noteRead_false_uninitRead (s : State) : (s.noteRead false).faults.uninitRead = true := rfl

/-- The delay gate records an unwritten DCTR, and where it fires an unwritten RNG (43_audio_output.md R126, R127). -/
theorem State.noiseStage_records {s : State} {p : StepParams}
    (h : s.dctr.written = false ∨ (p.dly ≤ s.dctr.val ∧ s.rng.written = false)) :
    (s.noiseStage p).faults.uninitRead = true := by
  rcases h with hdctr | ⟨hgate, hrng⟩
  · have hread : (s.noteRead s.dctr.written).faults.uninitRead = true := hdctr ▸ s.noteRead_false_uninitRead
    by_cases hgate : p.dly ≤ s.dctr.val
    · rw [State.noiseStage_fires hgate]
      exact (State.emitNoise_keeps { s.noteRead s.dctr.written with dctr := .put 0 } p).2 hread
    · rw [State.noiseStage_holds hgate]
      exact hread
  · rw [State.noiseStage_fires hgate, State.emitNoise_faults]
    simp only [State.noteRead_rng, hrng]
    split <;> rfl

end Sys2Proof.Machine

namespace Sys2Proof

open Sys2Proof.Machine

/-- Settles O21: each event's reads are known, and an unwritten one among them records the name. -/
theorem unwrittenReadIsRecorded : Obligations.UnwrittenReadIsRecorded := by
  intro s
  refine ⟨fun hm hr hsuc => ?_, fun th hie hpending hth h => ?_, fun hm hr hlen hp h => ?_, fun hv v d h => ?_,
    fun hv hamp => ?_⟩
  · rw [exec_loopSample_of_playing hm hr, hsuc]
    rfl
  · refine ⟨_, exec_isr_of_enabled hie hpending hth, ?_⟩
    have hread : (s.tovf.written && (s.acc.written && (!decide (th ≤ s.acc.val + 1) || s.suc.written))) = false := by
      rcases h with h | h | ⟨hreach, h⟩
      · simp [h]
      · simp [h]
      · rw [decide_eq_true (BitVec.le_def.2 hreach), h, Bool.not_true, Bool.or_false, Bool.and_false, Bool.and_false]
    rw [State.tempoTick_takeInterrupt_faults, hread]
    rfl
  · obtain ⟨t, ht, hkeeps⟩ := exec_loopFinish_completes hm hr hlen hp
    refine ⟨t, ht, ?_⟩
    by_cases hzero : s.slatch.val = 0#8
    · have hslatch : s.slatch.written = false := h.resolve_right fun h => h.1 hzero
      rw [exec_loopFinish_of_playing hm hr, State.finishPlaying_of_no_step (s := { s with mph := .ready }) hzero] at ht
      cases ht
      rw [hslatch]
      rfl
    · have hread : (s.slatch.written && s.seen.written) = false := by
        rcases h with h | ⟨-, h⟩ <;> simp [h]
      refine (hkeeps hzero).2 ?_
      rw [State.consumed_faults, hread]
      rfl
  · obtain ⟨hHi, hLo⟩ := exec_step_of_noise hv v d
    exact ⟨⟨_, hHi, State.noiseStage_records h⟩, _, hLo, State.noiseStage_records h⟩
  · obtain ⟨hUp, hDn⟩ := exec_bit_of_dpcm hv
    exact ⟨⟨_, hUp, by rw [State.dpcmStage_faults, hamp]; rfl⟩, _, hDn, by rw [State.dpcmStage_faults, hamp]; rfl⟩

/-- Settles O17: the equation of TEMPO_ADV between iterations asks nothing of TIDX. -/
theorem tempoAdvAnyIndex : Obligations.TempoAdvAnyIndex :=
  fun _ hm => ⟨_, exec_tempoAdv_of_ready hm, toNat_ofNat_mod_nTempo _ _, rfl⟩

/-- Settles O22: each of these events begins with the check of MPH. -/
theorem wrongPhaseRefused : Obligations.WrongPhaseRefused :=
  fun _ => ⟨fun hm => ⟨exec_loopSample_of_sampled hm, exec_start_of_sampled hm, exec_stop_of_sampled hm,
    exec_tempoAdv_of_sampled hm, exec_patternLatch_of_sampled hm⟩, exec_loopFinish_of_ready⟩

/-- Settles O23: the write to PWM is the register and the observation. -/
theorem finishIdleWritesQuiescent : Obligations.FinishIdleWritesQuiescent :=
  fun _ hm hr => exec_loopFinish_of_idle hm hr

/-- Settles O27: the delay gate and the integrator have no condition but the variant. -/
theorem stepElementsComplete : Obligations.StepElementsComplete := by
  intro s
  refine ⟨fun hv v d => ?_, fun hv => ?_⟩
  · obtain ⟨hHi, hLo⟩ := exec_step_of_noise hv v d
    exact ⟨⟨_, hLo, by simp⟩, _, hHi, by simp⟩
  · obtain ⟨hUp, hDn⟩ := exec_bit_of_dpcm hv
    refine ⟨⟨_, hUp, by simp [dpcmDeltaOf]⟩, _, hDn, ?_⟩
    rw [State.dpcmStage_amp, Reg.put_val, dpcmDeltaOf, if_neg Bool.false_ne_true]
    bv_omega

/-- Settles O28: the step elements' guard is on the variant. -/
theorem otherVariantElementRefused : Obligations.OtherVariantElementRefused := by
  intro s
  refine ⟨fun hv v d => ?_, fun hv => ?_⟩
  · have hne : s.cfg.variant ≠ .noise := by simp [hv]
    exact ⟨State.inVariant_of_ne hne, State.inVariant_of_ne hne⟩
  · have hne : s.cfg.variant ≠ .dpcm := by simp [hv]
    exact ⟨State.inVariant_of_ne hne, State.inVariant_of_ne hne⟩

/-- Settles O48: these are the fields of `State.powerOn`. -/
theorem powerOnValues : Obligations.PowerOnValues :=
  fun _ _ => ⟨rfl, rfl, rfl, rfl, rfl, rfl, rfl, rfl, rfl, rfl, rfl, rfl, rfl, rfl, rfl, rfl⟩

end Sys2Proof

/-! The LFSR's non-zero states and the low-resolution lock (40_lfsr.md R95, R97). -/

namespace Sys2Proof.Machine

/-- A register with no bit set above bit 0 and no feedback is 0. -/
theorem eq_zero_of_feedback {c : Word16} (hup : ∀ i, c.getLsbD (i + 1) = false) (hfb : feedback c = false) :
    c = 0#16 := by
  have h0 : c.getLsbD 0 = false := by rwa [feedback, hup 0, Bool.false_xor] at hfb
  refine BitVec.eq_of_getLsbD_eq fun i _ => ?_
  rw [BitVec.getLsbD_zero]
  cases i with
  | zero => exact h0
  | succ i => exact hup i

/-- ADVANCE is 0 only of 0: every bit of the register reaches the result, bit 0 through the feedback (40_lfsr.md R91 to
R93). -/
theorem eq_zero_of_advance_eq_zero {f : LowresForm} {c : Word16} {hi : Bool} (h : advance f c hi = 0#16) : c = 0#16 := by
  have hbit (i : Nat) : (advance f c hi).getLsbD i = false := by rw [h, BitVec.getLsbD_zero]
  cases hi with
  | true =>
    simp only [advance_high, getLsbD_advanceHigh, Bool.or_eq_false_iff] at hbit
    exact eq_zero_of_feedback (fun i => (hbit i).1) (hbit 14).2
  | false =>
    cases f with
    | shifted =>
      simp only [advance_low_shifted, getLsbD_advanceShifted, Bool.or_eq_false_iff] at hbit
      exact eq_zero_of_feedback (fun i => (hbit i).1) (hbit 6).2
    | pinned =>
      simp only [advance_low_pinned, getLsbD_advancePinned, Bool.or_eq_false_iff, Bool.and_eq_false_imp,
        decide_eq_true_eq] at hbit
      refine eq_zero_of_feedback (fun i => ?_) ((hbit 6).2 rfl)
      by_cases hlow : i < 6
      · exact (hbit i).1.2 hlow
      · exact (hbit (i + 1)).1.1 (by omega)

/-- Bit 15 stays clear: no step shifts anything into it (40_lfsr.md R91 to R93). -/
theorem getLsbD_15_advance {f : LowresForm} {c : Word16} {hi : Bool} (h : c.getLsbD 15 = false) :
    (advance f c hi).getLsbD 15 = false := by
  have h16 : c.getLsbD (15 + 1) = false := BitVec.getLsbD_of_ge c 16 le_rfl
  cases hi with
  | true => rw [advance_high, getLsbD_advanceHigh, h16]; rfl
  | false =>
    cases f with
    | shifted => rw [advance_low_shifted, getLsbD_advanceShifted, h16]; rfl
    | pinned => rw [advance_low_pinned, getLsbD_advancePinned, h, h16]; rfl

/-- The last of `n + 1` steps taken out. -/
theorem advanceN_succ (f : LowresForm) (hi : Bool) (n : Nat) (c : Word16) :
    advanceN f hi (n + 1) c = advance f (advanceN f hi n c) hi := by
  induction n generalizing c with
  | zero => rfl
  | succ n ih => exact ih (advance f c hi)

/-- The bits of a field that is 0 are clear. -/
theorem getLsbD_of_extractLsb'_zero {c : Word16} {k i : Nat} (h : c.extractLsb' 0 k = 0#k) (hi : i < k) :
    c.getLsbD i = false := by
  simpa [hi] using congrArg (BitVec.getLsbD · i) h

/-- The lock: with bits 6..0 clear the PINNED step changes nothing (40_lfsr.md R97). -/
theorem advancePinned_of_low_zero {c : Word16} (h : c.extractLsb' 0 7 = 0#7) : advancePinned c = c := by
  have hlow (i : Nat) (hi : i < 7) : c.getLsbD i = false := getLsbD_of_extractLsb'_zero h hi
  have hfb : feedback c = false := by rw [feedback, hlow 1 (by decide), hlow 0 (by decide)]; rfl
  refine BitVec.eq_of_getLsbD_eq fun i _ => ?_
  rw [getLsbD_advancePinned, hfb, Bool.and_false, Bool.or_false]
  by_cases h7 : 7 ≤ i
  · have h6 : ¬ i < 6 := by omega
    simp [h7, h6]
  · by_cases h6 : i < 6
    · simp [h7, hlow i (by omega), hlow (i + 1) (by omega)]
    · simp [h7, h6, hlow i (by omega)]

/-- A fixed point of the SHIFTED step with bit 0 clear is 0: a set bit would have set the one below it. -/
theorem eq_zero_of_advanceShifted_eq_self {c : Word16} (h0 : c.getLsbD 0 = false) (h : advanceShifted c = c) :
    c = 0#16 := by
  have hbit (i : Nat) : c.getLsbD i = false := by
    induction i with
    | zero => exact h0
    | succ i ih =>
      rw [← h, getLsbD_advanceShifted, Bool.or_eq_false_iff] at ih
      exact ih.1
  exact BitVec.eq_of_getLsbD_eq fun i _ => by rw [hbit i, BitVec.getLsbD_zero]

end Sys2Proof.Machine

namespace Sys2Proof

open Sys2Proof.Machine

/-- Settles O38: only 0 advances to 0, and nothing is shifted into bit 15. -/
theorem advanceKeepsNonzero : Obligations.AdvanceKeepsNonzero :=
  fun _ _ _ hne h15 => ⟨mt eq_zero_of_advance_eq_zero hne, getLsbD_15_advance h15⟩

/-- Settles O41: bit 0 is one of the clear bits, so the SHIFTED step has no such fixed point but 0. -/
theorem pinnedLock : Obligations.PinnedLock :=
  fun _ hne hlow => ⟨advancePinned_of_low_zero hlow,
    mt (eq_zero_of_advanceShifted_eq_self (getLsbD_of_extractLsb'_zero hlow (by decide))) hne⟩

end Sys2Proof

/-! The invariants of reachable states: every event keeps them, and from a state that meets them the enabled events are
those that complete (10_state.md R40, 20_memory.md R61). -/

namespace Sys2Proof.Safety

open Sys2Proof Sys2Proof.Machine

/-! What a well-formed configuration gives the invariants. -/

theorem slowest_pos {c : Config} (h : c.Wf) : 0 < c.slowest.toNat := by
  obtain ⟨t, -, hpos, hle⟩ := Config.tempoAt_of_lt h c.nTempo_pos.1
  omega

/-- A seed with a non-zero field is not 0 (00_scope.md R8). -/
theorem seed_ne_zero {c : Config} (h : c.Wf) : c.seed ≠ 0#16 :=
  fun hzero => h.seed.2.1 (by rw [hzero]; rfl)

theorem le_foldl_max {α : Type} (f : α → Nat) (l : List α) (m : Nat) :
    m ≤ l.foldl (fun m b => max m (f b)) m ∧ ∀ b ∈ l, f b ≤ l.foldl (fun m b => max m (f b)) m := by
  induction l generalizing m with
  | nil => simp
  | cons a l ih =>
    obtain ⟨hinit, hmem⟩ := ih (max m (f a))
    refine ⟨(le_max_left _ _).trans hinit, fun b hb => ?_⟩
    rcases List.mem_cons.1 hb with rfl | hb
    · exact (le_max_right _ _).trans hinit
    · exact hmem b hb

/-- Every delay is at most the largest (10_state.md R40(e)). -/
theorem delayOf_le_maxDelay (c : Config) (d : BitVec 4) : (c.delayOf d).toNat ≤ maxDelay c :=
  (le_foldl_max BitVec.toNat c.delayTable.toList 0).2 _ (by simp [Config.delayOf])

/-! The stages of an audio tick. -/

section Playing

variable {s : State} (hinv : Inv s) (hr : s.run = true)
include hinv hr

/-- The delay gate keeps the invariants for any delay of the table: DCTR counts only up to that delay, and the LFSR leaves
no state but the non-zero ones with bit 15 clear (40_lfsr.md R95). -/
theorem inv_noiseStage {p : StepParams} (hdly : p.dly.toNat ≤ maxDelay s.cfg) : Inv (s.noiseStage p) := by
  obtain ⟨-, -, -, -, -, hrngw, hdctrw, -⟩ := hinv.started hr
  obtain ⟨hne, h15⟩ := hinv.rngOk hrngw
  by_cases hgate : p.dly ≤ s.dctr.val
  · rw [State.noiseStage_fires_of_rng_ne_zero hgate hdctrw hrngw hne]
    exact { hinv with
      rngOk := fun _ => advanceKeepsNonzero _ _ _ hne h15
      dctrLe := fun _ _ => Nat.zero_le _
      started := fun hr => by simp [hinv.started hr] }
  · have hlt : s.dctr.val < p.dly := BitVec.not_le.1 hgate
    rw [State.noiseStage_holds_of_dctr_written hlt hdctrw]
    exact { hinv with
      dctrLe := fun _ _ => by simp only [Reg.put_val]; bv_omega
      started := fun hr => by simp [hinv.started hr] }

theorem inv_dpcmStage (u : Bool) : Inv (s.dpcmStage u) := by
  obtain ⟨-, -, -, -, -, -, -, hampw⟩ := hinv.started hr
  rw [State.dpcmStage, hampw, State.noteRead_true]
  exact { hinv with started := fun hr => by simp [hinv.started hr] }

/-- Consuming the step keeps CUR inside the pattern and SEEN at most its length (43_audio_output.md R124, R125). -/
theorem inv_consumed (hm : s.mph = .sampled) (hne : s.slatch.val ≠ 0#8) : Inv s.consumed := by
  obtain ⟨-, -, -, -, hseenw, -⟩ := hinv.started hr
  have hlen := ((Config.wf_iff _).1 hinv.wf.1).len.1
  have hcur := State.consumed_cur_lt hlen hne
  rw [State.consumed, hinv.sampled hr hm, State.noteRead_true] at hcur ⊢
  by_cases h : s.cfg.len < s.slatch.val.toNat
  · rw [State.consumeStep_rolls (s := { s with mph := .ready }) h, hseenw, State.noteRead_true]
    exact { hinv with
      curLt := fun _ => hlen
      seenLe := fun _ => hlen
      started := fun hr => by simp [hinv.started hr]
      sampled := nofun }
  · rw [State.consumeStep_follows (s := { s with mph := .ready }) h, hseenw, State.noteRead_true] at hcur ⊢
    exact { hinv with
      curLt := fun _ => hcur
      seenLe := fun _ => Nat.le_of_not_lt h
      started := fun hr => by simp [hinv.started hr]
      sampled := nofun }

end Playing

/-- ISR from a state that meets the invariants: every register it reads has been written (42_tempo_clock.md R112). -/
theorem inv_isr {s t : State} (hinv : Inv s) (h : execIsr s = .next t) : Inv t := by
  obtain ⟨hie, -, th, hth, rfl⟩ := execIsr_next h
  obtain ⟨htovfw, haccw, hsucw, -⟩ := hinv.started (hinv.ieRun ▸ hie)
  have hwf := (Config.wf_iff _).1 hinv.wf.1
  rw [htovfw, State.noteRead_true]
  by_cases hreach : th ≤ s.acc.val + 1
  · rw [State.tempoTick_reaches (s := s.takeInterrupt) hreach, State.takeInterrupt_acc, State.takeInterrupt_suc, haccw,
      hsucw, State.noteRead_true, State.noteRead_true]
    exact { hinv with
      accLt := fun _ => slowest_pos hwf
      started := fun hr => by simp [hinv.started hr] }
  · rw [State.tempoTick_counts (s := s.takeInterrupt) hreach, State.takeInterrupt_acc, haccw, State.noteRead_true]
    obtain ⟨th', hth', -, hle⟩ := Config.tempoAt_of_lt hwf hinv.tidxLt
    obtain rfl : th' = th := Option.some.inj (hth'.symm.trans hth)
    have hlt : s.acc.val + 1 < th' := BitVec.not_le.1 hreach
    exact { hinv with
      accLt := fun _ => Nat.lt_of_lt_of_le hlt hle
      started := fun hr => by simp [hinv.started hr] }

theorem inv_loopSample {s t : State} (hinv : Inv s) (h : execLoopSample s = .next t) : Inv t := by
  obtain ⟨-, ⟨hr, rfl⟩ | ⟨hr, rfl⟩⟩ := execLoopSample_next h
  · obtain ⟨-, -, hsucw, -⟩ := hinv.started hr
    rw [hsucw, State.noteRead_true]
    exact { hinv with sampled := fun _ _ => rfl }
  · exact { hinv with sampled := fun hr' => absurd (hr.symm.trans hr') Bool.false_ne_true }

theorem inv_loopFinish {s t : State} (hinv : Inv s) (h : exec .loopFinish s = .next t) : Inv t := by
  have hcfg := s.consumed_cfg
  have hrun : s.consumed.run = s.run := by simp [State.consumed]
  obtain ⟨hm, ⟨-, rfl⟩ | ⟨hr, -, rfl⟩ | ⟨hr, hne, -, b, rfl⟩ | ⟨hr, hne, -, ⟨u, rfl⟩ | rfl⟩⟩ := exec_loopFinish_next h
  · exact { hinv with sampled := nofun }
  · rw [hinv.sampled hr hm, State.noteRead_true]
    exact { hinv with sampled := nofun }
  · exact inv_noiseStage (inv_consumed hinv hr hm hne) (hrun.trans hr) (hcfg ▸ delayOf_le_maxDelay _ _)
  · exact inv_dpcmStage (inv_consumed hinv hr hm hne) (hrun.trans hr) u
  · exact inv_consumed hinv hr hm hne

theorem inv_start {s t : State} (hinv : Inv s) (h : execStart s = .next t) : Inv t := by
  have hwf := (Config.wf_iff _).1 hinv.wf.1
  obtain ⟨hm, ⟨-, rfl⟩ | ⟨-, rfl⟩⟩ := execStart_next h
  · exact hinv
  · exact { hinv with
      rngOk := fun _ => ⟨seed_ne_zero hwf, hwf.seed.1⟩
      ieRun := rfl
      curLt := fun _ => hwf.len.1
      seenLe := fun _ => Nat.zero_le _
      dctrLe := fun _ _ => Nat.zero_le _
      accLt := fun _ => slowest_pos hwf
      started := fun _ => ⟨rfl, rfl, rfl, rfl, rfl, rfl, rfl, rfl⟩
      sampled := fun _ hm' => nomatch hm.symm.trans hm' }

theorem inv_stop {s t : State} (hinv : Inv s) (h : execStop s = .next t) : Inv t := by
  obtain ⟨-, ⟨-, rfl⟩ | ⟨-, rfl⟩⟩ := execStop_next h
  · exact { hinv with ieRun := rfl, dctrLe := fun _ _ => Nat.zero_le _, started := nofun, sampled := nofun }
  · exact hinv

/-- Every event keeps the invariants (10_state.md R40). -/
theorem exec_keeps_inv {i : Instr} {s t : State} (hi : i.format = .evt8) (hinv : Inv s) (h : exec i s = .next t) :
    Inv t := by
  have hwf := (Config.wf_iff _).1 hinv.wf.1
  cases i with
  | stepLo | stepHi | dn | up => cases hi
  | ovf => cases h; exact { hinv with started := fun hr => by simp [hinv.started hr] }
  | isr => exact inv_isr hinv h
  | loopSample => exact inv_loopSample hinv h
  | loopFinish => exact inv_loopFinish hinv h
  | start => exact inv_start hinv h
  | stop => exact inv_stop hinv h
  | tempoAdv =>
    obtain ⟨-, rfl⟩ := execTempoAdv_next h
    exact { hinv with
      tidxLt := (toNat_ofNat_mod_nTempo _ _).trans_lt (Nat.mod_lt _ s.cfg.nTempo_pos.1) }
  | patternLatch n =>
    obtain ⟨-, rfl⟩ := execPatternLatch_next h
    have hlt : min n.toNat (s.cfg.npat - 1) < s.cfg.npat :=
      (min_le_right _ _).trans_lt (Nat.sub_one_lt_of_le hwf.npat.1 le_rfl)
    exact { hinv with patLt := (toNat_ofNat_min_toNat _ _).trans_lt hlt }

/-- A run of events keeps the invariants. -/
theorem execAll_keeps_inv {is : List Instr} {s t : State} (his : ∀ i ∈ is, i.format = .evt8) (hinv : Inv s)
    (h : execAll is s = .next t) : Inv t := by
  induction is generalizing s with
  | nil => cases h; exact hinv
  | cons i is ih =>
    obtain ⟨m, hm, h⟩ := execAll_cons_eq_next.1 h
    rw [List.forall_mem_cons] at his
    exact ih his.2 (exec_keeps_inv his.1 hinv hm) h

/-- The model's own two fields enter no invariant. -/
theorem inv_stream_choices {s : State} (hinv : Inv s) (st : List Byte) (ch : Nat) :
    Inv { s with stream := st, choices := ch } := { hinv with }

/-- An enabled event completes: no index it computes is out of range (20_memory.md R54). -/
theorem exec_completes_of_enables {i : Instr} {s : State} (hinv : Inv s) (h : s.Enables i) : ∃ t, exec i s = .next t := by
  have hwf := (Config.wf_iff _).1 hinv.wf.1
  cases i with
  | stepLo | stepHi | dn | up => exact h.elim
  | ovf => exact ⟨_, rfl⟩
  | isr =>
    obtain ⟨th, hth, -⟩ := Config.tempoAt_of_lt hwf hinv.tidxLt
    exact ⟨_, exec_isr_of_enabled h.1 h.2 hth⟩
  | loopFinish =>
    cases hr : s.run with
    | false => exact ⟨_, exec_loopFinish_of_idle h hr⟩
    | true =>
      obtain ⟨t, ht, -⟩ := exec_loopFinish_completes h hr hwf.len.1 hinv.patLt
      exact ⟨t, ht⟩
  | loopSample =>
    cases hr : s.run with
    | false => exact ⟨_, exec_loopSample_of_idle h hr⟩
    | true => exact ⟨_, exec_loopSample_of_playing h hr⟩
  | start =>
    cases hr : s.run with
    | false => exact ⟨_, exec_start_of_idle h hr⟩
    | true => exact ⟨_, exec_start_of_playing h hr⟩
  | stop =>
    cases hr : s.run with
    | false => exact ⟨_, exec_stop_of_idle h hr⟩
    | true => exact ⟨_, exec_stop_of_playing h hr⟩
  | tempoAdv => exact ⟨_, exec_tempoAdv_of_ready h⟩
  | patternLatch n => exact ⟨_, exec_patternLatch_of_ready h n⟩

theorem phase_sampled_of_not_ready {m : Phase} (h : m ≠ .ready) : m = .sampled := by
  cases m with
  | ready => exact absurd rfl h
  | sampled => rfl

theorem phase_ready_of_not_sampled {m : Phase} (h : m ≠ .sampled) : m = .ready := by
  cases m with
  | ready => rfl
  | sampled => exact absurd rfl h

/-- An event that is not enabled is refused (60_exceptions.md R152). -/
theorem exec_refused_of_not_enables {i : Instr} {s : State} (hi : i.format = .evt8) (h : ¬ s.Enables i) :
    ∃ r, exec i s = .refused r := by
  cases i with
  | stepLo | stepHi | dn | up => cases hi
  | ovf => exact absurd trivial h
  | isr => exact ⟨_, exec_isr_of_not_enabled h⟩
  | loopFinish => exact ⟨_, exec_loopFinish_of_ready (phase_ready_of_not_sampled h)⟩
  | loopSample => exact ⟨_, exec_loopSample_of_sampled (phase_sampled_of_not_ready h)⟩
  | start => exact ⟨_, exec_start_of_sampled (phase_sampled_of_not_ready h)⟩
  | stop => exact ⟨_, exec_stop_of_sampled (phase_sampled_of_not_ready h)⟩
  | tempoAdv => exact ⟨_, exec_tempoAdv_of_sampled (phase_sampled_of_not_ready h)⟩
  | patternLatch n => exact ⟨_, exec_patternLatch_of_sampled (phase_sampled_of_not_ready h) n⟩

/-- An event from a state that meets the invariants is no fault: it completes, or is refused. -/
theorem exec_ne_fault {i : Instr} {s : State} (hi : i.format = .evt8) (hinv : Inv s) (f : Fault) :
    exec i s ≠ .fault f := by
  by_cases h : s.Enables i
  · obtain ⟨t, ht⟩ := exec_completes_of_enables hinv h
    simp [ht]
  · obtain ⟨r, hr⟩ := exec_refused_of_not_enables hi h
    simp [hr]

/-- At power-on nothing is written, and TIDX and P are 0 (10_state.md R41). -/
theorem inv_powerOn {c : Config} {m : Memory} (h : (State.powerOn c m).InstanceWf) : Inv (State.powerOn c m) where
  wf := h
  rngOk := nofun
  ieRun := rfl
  tidxLt := c.nTempo_pos.1
  patLt := ((Config.wf_iff c).1 h.1).npat.1
  curLt := nofun
  seenLe := nofun
  dctrLe := fun _ => nofun
  noFault := rfl
  accLt := nofun
  started := nofun
  sampled := nofun

end Sys2Proof.Safety

namespace Sys2Proof

open Sys2Proof.Machine Sys2Proof.Safety

/-- Settles O50: a step is one event, and every event keeps the invariants. -/
theorem stepKeepsInv : Obligations.StepKeepsInv := by
  intro s t hinv h
  obtain ⟨i, st, ch, hi, hexec⟩ := step_next h
  exact exec_keeps_inv hi (inv_stream_choices hinv st ch) hexec

/-- Settles O56: the enabling condition is all that decides where the invariants hold. -/
theorem enabledEventsAreThoseThatRun : Obligations.EnabledEventsAreThoseThatRun :=
  fun _ _ hinv hi => ⟨fun h => exec_completes_of_enables hinv (State.mem_enabled_iff.1 h),
    fun h => exec_refused_of_not_enables hi (mt State.mem_enabled_iff.2 h)⟩

/-- Settles O57: a step refuses or runs an event, and with no word waiting that event is enabled. -/
theorem coreNeverStops : Obligations.CoreNeverStops := by
  intro s hinv
  rcases step_cases s with ⟨hwf, -⟩ | ⟨-, hs, hc⟩ | ⟨-, i, st, ch, hi, hen, hc⟩
  · exact absurd hinv.wf hwf
  · exact ⟨fun f => by simp [hc], fun hnil => absurd hnil hs⟩
  · have hinv' := inv_stream_choices hinv st ch
    refine ⟨fun f => hc ▸ exec_ne_fault hi hinv' f, fun hnil => ?_⟩
    obtain ⟨t, ht⟩ := exec_completes_of_enables hinv' (hen hnil)
    exact ⟨t, hc.trans ht, exec_keeps_inv hi hinv' ht⟩

/-- Settles O49: power-on needs only a well-formed instance, which State.reset's is. -/
theorem powerOnMeetsInv : Obligations.PowerOnMeetsInv :=
  ⟨fun _ _ => inv_powerOn, inv_powerOn (by decide)⟩

end Sys2Proof

/-! Hardware ticks: overflows that coalesce, what the interrupt context sees, and the period of the step updates
(42_tempo_clock.md R110 to R113, 60_exceptions.md R154). -/

namespace Sys2Proof.Safety

open Sys2Proof Sys2Proof.Machine

/-! Runs by their parts and their frames. -/

theorem Same.trans {p : Part} {s m t : State} (h₁ : Same p s m) (h₂ : Same p m t) : Same p s t := by
  cases p <;> exact Eq.trans h₂ h₁

theorem Same.refl (p : Part) (s : State) : Same p s s := by
  cases p <;> rfl

/-- A run leaves what none of its events may write (10_state.md R39). -/
theorem execAll_same {is : List Instr} {s t : State} {p : Part} (hp : ∀ i ∈ is, p ∉ mayWrite i)
    (h : execAll is s = .next t) : Same p s t := by
  induction is generalizing s with
  | nil => cases h; exact .refl p _
  | cons i is ih =>
    obtain ⟨m, hm, h⟩ := execAll_cons_eq_next.1 h
    rw [List.forall_mem_cons] at hp
    exact (exec_same hm hp.1).trans (ih hp.2 h)

/-- Overflows merge (60_exceptions.md R154). -/
theorem execAll_replicate_ovf (s : State) (n : Nat) :
    execAll (List.replicate (n + 1) .ovf) s = .next { s with tovf := .put true } := by
  induction n generalizing s with
  | zero => rfl
  | succ n ih => exact execAll_cons_eq_next.2 ⟨s.setPending, rfl, ih s.setPending⟩

/-! The handler's two registers. -/

theorem tempoTick_acc (s : State) (th : Word16) :
    (s.tempoTick th).acc = if th ≤ s.acc.val + 1 then .put 0 else .put (s.acc.val + 1) := by
  split
  next h => rw [State.tempoTick_reaches h]
  next h => rw [State.tempoTick_counts h]

theorem tempoTick_suc (s : State) (th : Word16) :
    (s.tempoTick th).suc = if th ≤ s.acc.val + 1 then .put (s.suc.val + 1) else s.suc := by
  split
  next h => rw [State.tempoTick_reaches h]
  next h => rw [State.tempoTick_counts h, State.noteRead_suc]

/-- One serviced tick with IE = 1: the interrupt is pending, is taken, and the handler runs (42_tempo_clock.md R112). -/
theorem execAll_tick {s : State} {th : Word16} (hie : s.ie = true) (hth : s.cfg.tempoTable[s.tidx.toNat]? = some th) :
    execAll [.ovf, .isr] s = .next (s.setPending.takeInterrupt.tempoTick th) :=
  execAll_cons_eq_next.2 ⟨s.setPending, rfl, execAll_cons_eq_next.2
    ⟨_, exec_isr_of_enabled (s := s.setPending) hie rfl hth, rfl⟩⟩

theorem ticks_succ (n : Nat) : ticks (n + 1) = ticks n ++ [.ovf, .isr] := by
  simp [ticks, EventLine.expand, List.replicate_succ']

theorem mem_ticks {i : Instr} {n : Nat} (h : i ∈ ticks n) : i = .ovf ∨ i = .isr := by
  simp only [ticks, EventLine.expand, List.mem_flatten, List.mem_replicate] at h
  obtain ⟨l, ⟨-, rfl⟩, hi⟩ := h
  simpa using hi

/-- Ticks leave every part that the handler and the overflow do not own (10_state.md R39). -/
theorem execAll_ticks_same {n : Nat} {s t : State} {p : Part} (hp : p ∉ [Part.tovf, .acc, .suc, .faults])
    (h : execAll (ticks n) s = .next t) : Same p s t := by
  refine execAll_same (fun i hi => ?_) h
  rcases mem_ticks hi with rfl | rfl
  · simp_all [mayWrite]
  · exact hp

/-- Up to the threshold, `n` serviced ticks from `ACC = 0` count in ACC, and the threshold-th steps SUC
(42_tempo_clock.md R112). -/
theorem execAll_ticks {s : State} {th : Word16} (hie : s.ie = true) (hacc : s.acc.val = 0)
    (hth : s.cfg.tempoTable[s.tidx.toNat]? = some th) {n : Nat} (hn : n ≤ th.toNat) :
    ∃ t, execAll (ticks n) s = .next t ∧ (n < th.toNat → t.suc.val = s.suc.val ∧ t.acc.val.toNat = n) ∧
      (n = th.toNat → 1 ≤ n → t.suc.val = s.suc.val + 1 ∧ t.acc.val = 0) := by
  induction n with
  | zero => exact ⟨s, rfl, fun _ => ⟨rfl, by simp [hacc]⟩, fun _ h => absurd h (by decide)⟩
  | succ n ih =>
    obtain ⟨m, hm, hbelow, -⟩ := ih (by omega)
    obtain ⟨hmsuc, hmacc⟩ := hbelow (by omega)
    have hmie : m.ie = s.ie := execAll_ticks_same (p := .ie) (by simp) hm
    have hmcfg : m.cfg = s.cfg := execAll_ticks_same (p := .cfg) (by simp) hm
    have hmtidx : m.tidx = s.tidx := execAll_ticks_same (p := .tidx) (by simp) hm
    have hcount : (m.acc.val + 1).toNat = n + 1 := by
      have hlt := th.isLt
      bv_omega
    have hreach : th ≤ m.acc.val + 1 ↔ th.toNat ≤ n + 1 := by rw [BitVec.le_def, hcount]
    rw [ticks_succ]
    refine ⟨_, execAll_append_eq_next.2 ⟨m, hm, execAll_tick (hmie.trans hie) (by rw [hmcfg, hmtidx, hth])⟩,
      fun hlt => ?_, fun heq _ => ?_⟩
    · have hno : ¬ th ≤ m.acc.val + 1 := by rw [hreach]; omega
      rw [tempoTick_suc, tempoTick_acc]
      exact ⟨(congrArg Reg.val (if_neg hno)).trans hmsuc,
        (congrArg (fun r : Reg Word16 => r.val.toNat) (if_neg hno)).trans hcount⟩
    · have hyes : th ≤ m.acc.val + 1 := by rw [hreach]; omega
      rw [tempoTick_suc, tempoTick_acc, ← hmsuc]
      exact ⟨congrArg Reg.val (if_pos hyes), congrArg Reg.val (if_pos hyes)⟩

/-! The two halves of an iteration in Playing with a step active. -/

/-- LOOP_FINISH gives SUC, CUR and SEEN in consuming the step, before the element runs (43_audio_output.md R122). -/
theorem exec_loopFinish_cursor {s t : State} (hr : s.run = true) (hne : s.slatch.val ≠ 0#8)
    (h : exec .loopFinish s = .next t) :
    t.suc = s.consumed.suc ∧ t.cur = s.consumed.cur ∧ t.seen = s.consumed.seen := by
  obtain ⟨-, ⟨hidle, -⟩ | ⟨-, hzero, -⟩ | ⟨-, -, -, b, rfl⟩ | ⟨-, -, -, ⟨u, rfl⟩ | rfl⟩⟩ := exec_loopFinish_next h
  · exact absurd (hidle.symm.trans hr) Bool.false_ne_true
  · exact absurd hzero hne
  · simp
  · simp
  · exact ⟨rfl, rfl, rfl⟩

/-- Past the pattern's end SUC and SEEN become 1 and CUR 0 (43_audio_output.md R124). -/
theorem consumed_of_rollover {s : State} (h : s.cfg.len < s.slatch.val.toNat) :
    s.consumed.suc = .put 1 ∧ s.consumed.cur = .put 0 ∧ s.consumed.seen = .put 1 := by
  rw [State.consumed, State.consumeStep_rolls (by simpa using h)]
  exact ⟨rfl, rfl, rfl⟩

/-- Past the pattern's end LOOP_FINISH completes with SUC and SEEN 1 and CUR 0 (43_audio_output.md R124). -/
theorem exec_loopFinish_rolls {s : State} (hinv : Inv s) (hr : s.run = true) (hm : s.mph = .sampled)
    (hpast : s.cfg.len < s.slatch.val.toNat) :
    ∃ t, exec .loopFinish s = .next t ∧ t.suc = .put 1 ∧ t.cur = .put 0 ∧ t.seen = .put 1 := by
  obtain ⟨t, ht⟩ := exec_completes_of_enables (i := .loopFinish) hinv hm
  have hne : s.slatch.val ≠ 0#8 := fun hzero => by simp [hzero] at hpast
  obtain ⟨htsuc, htcur, htseen⟩ := exec_loopFinish_cursor hr hne ht
  obtain ⟨hsuc, hcur, hseen⟩ := consumed_of_rollover hpast
  exact ⟨t, ht, htsuc.trans hsuc, htcur.trans hcur, htseen.trans hseen⟩

end Sys2Proof.Safety

namespace Sys2Proof

open Sys2Proof.Machine Sys2Proof.Safety

/-- Settles O12: the first overflow sets TOVF, and the rest set it again. -/
theorem overflowsCoalesce : Obligations.OverflowsCoalesce := execAll_replicate_ovf

/-- Settles O15: the threshold and the handler's ACC and SUC are functions of what the two states share. -/
theorem isrSeesOnlyItsRegisters : Obligations.IsrSeesOnlyItsRegisters := by
  rintro s s' t ⟨htable, hie, htovf, hacc, hsuc, htidx⟩ h
  obtain ⟨hen, hpending, th, hth, rfl⟩ := execIsr_next h
  have hth' : s'.cfg.tempoTable[s'.tidx.toNat]? = some th := by rw [htable, htidx]; exact hth
  refine ⟨_, exec_isr_of_enabled (hie.trans hen) (by rw [htovf, hpending]) hth', ?_, ?_, ?_⟩
  · simp
  · simp [tempoTick_acc, hacc]
  · simp [tempoTick_suc, hacc, hsuc]

/-- Settles O18: ACC counts the ticks, so the threshold is reached at the threshold-th. -/
theorem stepUpdatePeriod : Obligations.StepUpdatePeriod :=
  fun _ _ _ hie hacc hth hn => execAll_ticks hie hacc hth hn

/-- Settles O33: SLATCH keeps the value from before the tick, and LOOP_FINISH rolls over on it. -/
theorem rolloverLosesUpdate : Obligations.RolloverLosesUpdate := by
  intro s th hinv hr hm hpast hth hreach
  have hie : s.ie = true := hinv.ieRun.trans hr
  obtain ⟨-, haccw, hsucw, -⟩ := hinv.started hr
  have hsample := exec_loopSample_of_playing hm hr
  rw [hsucw, State.noteRead_true] at hsample
  have hrun := execAll_cons_eq_next.2 ⟨_, hsample, execAll_tick (by exact hie) (by exact hth)⟩
  generalize hmid : State.tempoTick _ th = m at hrun
  have hle : th ≤ s.acc.val + 1 := by
    have hlt := hinv.accLt haccw
    have hmax := s.cfg.slowest.isLt
    bv_omega
  have hsuc : m.suc.val = s.suc.val + 1 := by
    rw [← hmid, tempoTick_suc]
    exact congrArg Reg.val (if_pos hle)
  have hslatch : m.slatch.val = s.suc.val := by simp [← hmid]
  have hmcfg : m.cfg = s.cfg := by simp [← hmid]
  obtain ⟨t, ht, htsuc, htcur, htseen⟩ := exec_loopFinish_rolls (s := m) (execAll_keeps_inv (by decide) hinv hrun)
    (by simpa [← hmid] using hr) (by simp [← hmid]) (by rwa [hmcfg, hslatch])
  exact ⟨m, t, hrun, hsuc, ht, congrArg Reg.val htsuc, congrArg Reg.val htcur, congrArg Reg.val htseen⟩

/-- Settles O46: START writes every register of the sequencer, so what is left of the first run is what START does not
write. -/
theorem restartEquivalence : Obligations.RestartEquivalence := by
  intro s t u hm hr hfaults hstop hstart
  have hrun : execAll [.stop, .start] s = .next s.enterIdle.silence.resetSequencer.enterPlaying :=
    execAll_cons_eq_next.2 ⟨_, exec_stop_of_playing hm hr, execAll_cons_eq_next.2
      ⟨_, exec_start_of_idle (s := s.enterIdle.silence) hm rfl, rfl⟩⟩
  cases hrun.symm.trans hstop
  cases (exec_start_of_idle (s := State.powerOn s.cfg s.rom) rfl rfl).symm.trans hstart
  apply State.ext <;> simp [State.powerOn, hm, hfaults]

end Sys2Proof

/-! Serviced runs: the two forms of ISR_SERVICED, the pending tick that is taken, and the tick that is not lost
(60_exceptions.md R154, R160). -/

namespace Sys2Proof.Safety

open Sys2Proof Sys2Proof.Machine

/-! What `IsrServiced` carries along a run. -/

/-- IE after an event, as `IsrServiced` reckons it. -/
def ieAfter (ie : Bool) : Instr → Bool
  | .start => true
  | .stop => false
  | .ovf | .isr | .loopSample | .loopFinish | .tempoAdv | .patternLatch _ | .stepLo _ _ | .stepHi _ _ | .dn | .up => ie

/-- Whether an OVF waits for its ISR after an event, as `IsrServiced` reckons it. -/
def waitingAfter (ie waiting : Bool) : Instr → Bool
  | .ovf => ie
  | .isr => false
  | .start => ie && waiting
  | .stop => false
  | .loopSample | .loopFinish | .tempoAdv | .patternLatch _ | .stepLo _ _ | .stepHi _ _ | .dn | .up => waiting

/-- The premise on a run is the premise on its first event and on the rest. -/
theorem isrServiced_cons {ie waiting : Bool} {i : Instr} {is : List Instr} :
    IsrServiced ie waiting (i :: is) = true ↔
      (i = .ovf → ie = true → waiting = false) ∧ IsrServiced (ieAfter ie i) (waitingAfter ie waiting i) is = true := by
  cases i with
  | ovf => cases ie <;> simp [IsrServiced, ieAfter, waitingAfter]
  | _ => simp [IsrServiced, ieAfter, waitingAfter]

/-- What the premise reckons with is what the state holds: IE, and while it is set the pending flag. -/
structure Reckons (ie waiting : Bool) (s : State) : Prop where
  ie_eq : s.ie = ie
  ie_run : s.ie = s.run
  waiting_eq : ie = true → s.tovf.val = waiting

theorem Reckons.init {s : State} (h : s.ie = s.run) : Reckons s.ie s.tovf.val s := ⟨rfl, h, fun _ => rfl⟩

/-- Each event keeps the reckoning (60_exceptions.md R153). -/
theorem Reckons.exec {ie waiting : Bool} {i : Instr} {s t : State} (hs : Reckons ie waiting s)
    (h : exec i s = .next t) : Reckons (ieAfter ie i) (waitingAfter ie waiting i) t := by
  obtain ⟨rfl, hrun, hwait⟩ := hs
  rcases exec_pending h with ⟨rfl, rfl⟩ | ⟨rfl, hie, -, htie, htovf, htrun⟩ |
    ⟨rfl, ⟨hr, rfl⟩ | ⟨hr, htie, htrun, htovf⟩⟩ | ⟨rfl, ⟨hr, rfl⟩ | ⟨hr, htie, htrun, htovf⟩⟩ |
    ⟨hovf, hisr, hstart, hstop, htie, htovf, htrun⟩
  · exact ⟨rfl, hrun, fun hie => hie.symm⟩
  · exact ⟨htie, by rw [htie, htrun, hrun], fun _ => by rw [htovf]; rfl⟩
  · have hie : t.ie = true := hrun.trans hr
    exact ⟨hie, hrun, fun _ => by simp [waitingAfter, hie, hwait]⟩
  · have hie : s.ie = false := hrun.trans hr
    exact ⟨htie, htie.trans htrun.symm, fun _ => by simp [htovf, waitingAfter, hie]⟩
  · exact ⟨hrun.trans hr, hrun, nofun⟩
  · exact ⟨htie, htie.trans htrun.symm, nofun⟩
  · have hkept : ieAfter s.ie i = s.ie ∧ waitingAfter s.ie waiting i = waiting := by
      cases i <;> simp_all [ieAfter, waitingAfter]
    rw [hkept.1, hkept.2]
    exact ⟨htie, by rw [htie, htrun, hrun], fun hie => by rw [htovf, hwait hie]⟩

/-- In a serviced run no overflow is pending where an OVF comes with IE = 1. -/
theorem tovf_of_isrServiced {ie waiting : Bool} {s t : State} {pre post : List Instr} (hs : Reckons ie waiting s)
    (hserviced : IsrServiced ie waiting (pre ++ .ovf :: post) = true) (h : execAll pre s = .next t) (hie : t.ie = true) :
    t.tovf.val = false := by
  induction pre generalizing ie waiting s with
  | nil =>
    cases h
    have hie' : ie = true := hs.ie_eq.symm.trans hie
    rw [hs.waiting_eq hie', (isrServiced_cons.1 hserviced).1 rfl hie']
  | cons i pre ih =>
    obtain ⟨m, hm, h⟩ := execAll_cons_eq_next.1 h
    exact ih (hs.exec hm) (isrServiced_cons.1 hserviced).2 h

/-! Endless runs. -/

section Endless

variable {events : Nat → Instr} {states : Nat → State}

/-- Of an endless run, the run from its second state on. -/
theorem IsRun.tail (hrun : IsRun events states) : IsRun (fun n => events (n + 1)) (fun n => states (n + 1)) :=
  fun n => hrun (n + 1)

theorem firstEvents_succ_eq_cons (events : Nat → Instr) (n : Nat) :
    firstEvents events (n + 1) = events 0 :: firstEvents (fun n => events (n + 1)) n := by
  simp [firstEvents, List.range_succ_eq_map, Function.comp_def]

/-- A run that loses no tick is serviced on each of its finite parts from the start. -/
theorem isrServiced_firstEvents {ie waiting : Bool} (hrun : IsRun events states) (hs : Reckons ie waiting (states 0))
    (hlost : ∀ n, events n = .ovf → (states n).ie = true → (states n).tovf.val = false) (n : Nat) :
    IsrServiced ie waiting (firstEvents events n) = true := by
  induction n generalizing events states ie waiting with
  | zero => rfl
  | succ n ih =>
    rw [firstEvents_succ_eq_cons, isrServiced_cons]
    refine ⟨fun hovf hie => ?_, ih hrun.tail (hs.exec (hrun 0)) fun k => hlost (k + 1)⟩
    rw [← hs.waiting_eq hie, hlost 0 hovf (hs.ie_eq.trans hie)]

/-- There is an event from which an ISR is due, and from there up to `n` none came and IE stayed set. -/
def DueSince (events : Nat → Instr) (states : Nat → State) (n : Nat) : Prop :=
  ∃ j, j ≤ n ∧ ServicedFrom events states j ∧ ∀ k, j ≤ k → k < n → events k ≠ .isr ∧ (states k).ie = true

theorem ServicedFrom.dueSince {n : Nat} (h : ServicedFrom events states n) : DueSince events states n :=
  ⟨n, le_rfl, h, fun _ hnk hkn => absurd hkn (Nat.not_lt.2 hnk)⟩

theorem DueSince.succ {n : Nat} (h : DueSince events states n) (hisr : events n ≠ .isr) (hie : (states n).ie = true) :
    DueSince events states (n + 1) := by
  obtain ⟨j, hj, hfrom, hsince⟩ := h
  refine ⟨j, by omega, hfrom, fun k hjk hk => ?_⟩
  rcases Nat.lt_succ_iff_lt_or_eq.1 hk with hk | rfl
  · exact hsince k hjk hk
  · exact ⟨hisr, hie⟩

/-- An overflow pending with IE = 1 is due since the OVF that set it, or since the run began. -/
theorem dueSince_of_pending (hrun : IsRun events states) (hserviced : IsrServicedForever events states) (n : Nat)
    (hie : (states n).ie = true) (hpending : (states n).tovf.val = true) : DueSince events states n := by
  induction n with
  | zero => exact (hserviced.1 hie hpending).dueSince
  | succ n ih =>
    rcases exec_pending (hrun n) with ⟨hi, ht⟩ | ⟨-, -, -, -, htovf, -⟩ | ⟨hi, ⟨-, ht⟩ | ⟨-, -, -, htovf⟩⟩ |
      ⟨hi, ⟨-, ht⟩ | ⟨-, htie, -⟩⟩ | ⟨-, hisr, -, -, htie, htovf, -⟩
    · rw [ht] at hie
      exact (hserviced.2 n hi hie).dueSince
    · simp [htovf] at hpending
    · rw [ht] at hie hpending
      exact (ih hie hpending).succ (by simp [hi]) hie
    · simp [htovf] at hpending
    · rw [ht] at hie hpending
      exact (ih hie hpending).succ (by simp [hi]) hie
    · simp [htie] at hie
    · rw [htie] at hie
      rw [htovf] at hpending
      exact (ih hie hpending).succ hisr hie

/-- From a pending overflow with IE = 1 an ISR or the clearing of IE comes before any OVF. -/
theorem servicedFrom_of_pending (hrun : IsRun events states) (hserviced : IsrServicedForever events states) {n : Nat}
    (hie : (states n).ie = true) (hpending : (states n).tovf.val = true) : ServicedFrom events states n := by
  obtain ⟨j, hj, ⟨m, hjm, hm, hno⟩, hsince⟩ := dueSince_of_pending hrun hserviced n hie hpending
  have hnm : n ≤ m := by
    by_contra hlt
    obtain ⟨hisr, hiem⟩ := hsince m hjm (Nat.lt_of_not_le hlt)
    rcases hm with hm | hm
    · exact hisr hm
    · exact Bool.false_ne_true (hm.symm.trans hiem)
  exact ⟨m, hnm, hm, fun k hnk hkm => hno k (hj.trans hnk) hkm⟩

/-- So an OVF with IE = 1 finds no overflow pending. -/
theorem tovf_of_isrServicedForever (hrun : IsRun events states) (hserviced : IsrServicedForever events states) {n : Nat}
    (hovf : events n = .ovf) (hie : (states n).ie = true) : (states n).tovf.val = false := by
  rw [← Bool.not_eq_true]
  intro hpending
  obtain ⟨m, hnm, hm, hno⟩ := servicedFrom_of_pending hrun hserviced hie hpending
  rcases hnm.lt_or_eq with hlt | rfl
  · exact hno n le_rfl hlt hovf
  · rcases hm with hm | hm
    · cases hovf.symm.trans hm
    · exact Bool.false_ne_true (hm.symm.trans hie)

end Endless

end Sys2Proof.Safety

namespace Sys2Proof

open Sys2Proof.Machine Sys2Proof.Safety

/-- Settles O19: what the premise reckons with is what the state holds. -/
theorem servicedRunsLoseNoTick : Obligations.ServicedRunsLoseNoTick :=
  fun _ _ _ _ hrun hserviced h hie => tovf_of_isrServiced (.init hrun) hserviced h hie

/-- Settles O58: the ISR due for the pending overflow has not come yet. -/
theorem pendingTickIsTaken : Obligations.PendingTickIsTaken := by
  intro events states hrun hserviced n hie hpending
  obtain ⟨m, hnm, hm, -⟩ := servicedFrom_of_pending hrun hserviced hie hpending
  exact ⟨m, hnm, hm⟩

/-- Settles O59: the run loses no tick, and a run that loses none is serviced up to every event. -/
theorem servicedRunPrefixesAreServiced : Obligations.ServicedRunPrefixesAreServiced := by
  intro events states hrun hserviced hie
  have hlost (n : Nat) := tovf_of_isrServicedForever hrun hserviced (n := n)
  exact ⟨isrServiced_firstEvents hrun (.init hie) hlost, hlost⟩

end Sys2Proof

/-! The emission period of the noise variant, and the first sample after START (43_audio_output.md R121 to R128,
95_test_vectors.md E10). -/

namespace Sys2Proof.Safety

open Sys2Proof Sys2Proof.Machine

theorem loops_succ (n : Nat) : loops (n + 1) = loops n ++ [.loopSample, .loopFinish] := by
  simp [loops, EventLine.expand, List.replicate_succ']

/-- The state on which an uninterrupted audio tick inside the pattern runs its element (43_audio_output.md R121, R125). -/
def atStep (s : State) : State :=
  { s with slatch := .put s.suc.val, mph := .ready, seen := .put s.suc.val, cur := .put (s.suc.val - 1) }

/-- What an audio tick needs to run the step byte `b` of the pattern: SUC is its number, counted from 1. -/
structure InForce (s : State) (b : Byte) : Prop where
  noise : s.cfg.variant = .noise
  playing : s.run = true
  ready : s.mph = .ready
  suc_ne : s.suc.val ≠ 0#8
  suc_le : s.suc.val.toNat ≤ s.cfg.len
  byte : s.rom.read (s.pat.toNat * s.cfg.len + (s.suc.val.toNat - 1)) = b

/-- An uninterrupted audio tick runs the delay gate with the byte in force (41_step_decoder.md R108). -/
theorem execAll_loop {s : State} {b : Byte} (hinv : Inv s) (h : InForce s b) :
    execAll [.loopSample, .loopFinish] s = .next ((atStep s).noiseStage (decodeStep s.cfg b)) := by
  obtain ⟨hv, hr, hm, hne, hle, hbyte⟩ := h
  obtain ⟨-, -, hsucw, -, hseenw, -⟩ := hinv.started hr
  have hlen := ((Config.wf_iff _).1 hinv.wf.1).len.1
  have hsample := exec_loopSample_of_playing hm hr
  rw [hsucw, State.noteRead_true] at hsample
  obtain ⟨-, hfollow⟩ := finishRunsFetchedStepByte { s with slatch := .put s.suc.val, mph := .sampled } hv hr rfl rfl
    hseenw hne hlen hinv.patLt
  have hfinish := hfollow hle
  simp only [Reg.put_val, hbyte, exec_decodeStep8, runStepByte_eq] at hfinish
  refine execAll_cons_eq_next.2 ⟨_, hsample, execAll_cons_eq_next.2 ⟨_, hfinish.trans ?_, rfl⟩⟩
  exact State.inVariant_eq_next.2 ⟨hv, rfl⟩

/-! The run of audio ticks. -/

/-- The sample of the `(j + 1)`-th LFSR output after `s` through the window of `p` (43_audio_output.md R127). -/
def sampleAt (s : State) (p : StepParams) (j : Nat) : Byte :=
  ampl (advanceN s.cfg.lowresForm p.hi (j + 1) s.rng.val) p.mask p.off

/-- `t` is `s` after `k` emissions with `p` in force and `n` audio ticks since the last. -/
structure Emitted (s : State) (p : StepParams) (k n : Nat) (t : State) : Prop where
  inv : Inv t
  writes : t.writes = s.writes ++ (List.range k).map (sampleAt s p)
  rng : t.rng.val = advanceN s.cfg.lowresForm p.hi k s.rng.val
  dctr : t.dctr.val.toNat = n
  pwm_zero : k = 0 → t.pwm = s.pwm
  pwm_succ : ∀ j, k = j + 1 → t.pwm = .put (sampleAt s p j)
  suc : t.suc = s.suc
  pat : t.pat = s.pat
  cfg : t.cfg = s.cfg
  rom : t.rom = s.rom
  run : t.run = s.run
  mph : t.mph = s.mph

theorem Emitted.init {s : State} {p : StepParams} (hinv : Inv s) (hdctr : s.dctr.val = 0) : Emitted s p 0 0 s where
  inv := hinv
  writes := by simp
  rng := rfl
  dctr := by rw [hdctr]; rfl
  pwm_zero := fun _ => rfl
  pwm_succ := nofun
  suc := rfl
  pat := rfl
  cfg := rfl
  rom := rfl
  run := rfl
  mph := rfl

section Period

variable {s t : State} {b : Byte} {k n : Nat} (hs : InForce s b)
include hs

/-- No emission changes which byte is in force. -/
theorem Emitted.inForce {p : StepParams} (h : Emitted s p k n t) : InForce t b where
  noise := by rw [h.cfg, hs.noise]
  playing := h.run.trans hs.playing
  ready := h.mph.trans hs.ready
  suc_ne := by rw [h.suc]; exact hs.suc_ne
  suc_le := by rw [h.suc, h.cfg]; exact hs.suc_le
  byte := by rw [h.rom, h.pat, h.cfg, h.suc]; exact hs.byte

/-- Below the delay an audio tick counts in DCTR and emits nothing (43_audio_output.md R128). -/
theorem Emitted.count (h : Emitted s (decodeStep s.cfg b) k n t) (hn : n < (decodeStep s.cfg b).dly.toNat) :
    ∃ t', execAll [.loopSample, .loopFinish] t = .next t' ∧ Emitted s (decodeStep s.cfg b) k (n + 1) t' := by
  have hforce := h.inForce hs
  obtain ⟨-, -, -, -, -, -, hdctrw, -⟩ := h.inv.started hforce.playing
  have hexec := execAll_loop h.inv hforce
  have hdctr := h.dctr
  have hgate : t.dctr.val < (decodeStep s.cfg b).dly := BitVec.lt_def.2 (hdctr ▸ hn)
  have hcount : (t.dctr.val + 1).toNat = n + 1 := by
    have hlt := (decodeStep s.cfg b).dly.isLt
    bv_omega
  rw [h.cfg, State.noiseStage_holds_of_dctr_written (s := atStep t) hgate hdctrw] at hexec
  refine ⟨_, hexec, { h with inv := execAll_keeps_inv (by decide) h.inv hexec, dctr := hcount, mph := hs.ready.symm }⟩

/-- At the delay an audio tick clears DCTR and emits the next LFSR output's sample (43_audio_output.md R126, R127). -/
theorem Emitted.emit (h : Emitted s (decodeStep s.cfg b) k (decodeStep s.cfg b).dly.toNat t) :
    ∃ t', execAll [.loopSample, .loopFinish] t = .next t' ∧ Emitted s (decodeStep s.cfg b) (k + 1) 0 t' := by
  have hforce := h.inForce hs
  obtain ⟨-, -, -, -, -, hrngw, hdctrw, -⟩ := h.inv.started hforce.playing
  have hexec := execAll_loop h.inv hforce
  have hgate : (decodeStep s.cfg b).dly ≤ t.dctr.val := BitVec.le_def.2 h.dctr.ge
  have hrng : advance t.cfg.lowresForm t.rng.val (decodeStep s.cfg b).hi =
      advanceN s.cfg.lowresForm (decodeStep s.cfg b).hi (k + 1) s.rng.val := by rw [advanceN_succ, h.rng, h.cfg]
  rw [h.cfg, State.noiseStage_fires_of_rng_ne_zero (s := atStep t) hgate hdctrw hrngw (h.inv.rngOk hrngw).1] at hexec
  refine ⟨_, hexec, { h with
    inv := execAll_keeps_inv (by decide) h.inv hexec
    writes := ?_
    rng := hrng
    dctr := rfl
    pwm_zero := nofun
    pwm_succ := ?_
    mph := hs.ready.symm }⟩
  · rw [List.range_succ, List.map_append, ← List.append_assoc, ← h.writes]
    exact congrArg (fun r => t.writes ++ [ampl r _ _]) hrng
  · rintro j ⟨⟩
    exact congrArg (fun r => Reg.put (ampl r _ _)) hrng

/-- From the tick after an emission on, the next `dly` audio ticks count. -/
theorem execAll_loops_count {l : Nat}
    (h : ∃ m, execAll (loops l) s = .next m ∧ Emitted s (decodeStep s.cfg b) k 0 m)
    (hn : n ≤ (decodeStep s.cfg b).dly.toNat) :
    ∃ t, execAll (loops (l + n)) s = .next t ∧ Emitted s (decodeStep s.cfg b) k n t := by
  induction n with
  | zero => exact h
  | succ n ih =>
    obtain ⟨m, hm, hmid⟩ := ih (by omega)
    obtain ⟨t, ht, hend⟩ := hmid.count hs hn
    refine ⟨t, ?_, hend⟩
    rw [← Nat.add_assoc, loops_succ]
    exact execAll_append_eq_next.2 ⟨m, hm, ht⟩

/-- After `k` periods (43_audio_output.md, emission period). -/
theorem execAll_loops_periods (hinv : Inv s) (hdctr : s.dctr.val = 0) (k : Nat) :
    ∃ t, execAll (loops (k * ((decodeStep s.cfg b).dly.toNat + 1))) s = .next t ∧
      Emitted s (decodeStep s.cfg b) k 0 t := by
  induction k with
  | zero => exact ⟨s, by rw [Nat.zero_mul]; rfl, .init hinv hdctr⟩
  | succ k ih =>
    obtain ⟨m, hm, hmid⟩ := execAll_loops_count hs ih le_rfl
    obtain ⟨t, ht, hend⟩ := hmid.emit hs
    refine ⟨t, ?_, hend⟩
    rw [Nat.succ_mul, ← Nat.add_assoc, loops_succ]
    exact execAll_append_eq_next.2 ⟨m, hm, ht⟩

end Period

theorem format_of_mem_ticks {i : Instr} {n : Nat} (h : i ∈ ticks n) : i.format = .evt8 := by
  rcases mem_ticks h with rfl | rfl <;> rfl

/-- START and threshold many serviced ticks make SUC 1 and leave the rest as START wrote it (44_control_commands.md R141,
42_tempo_clock.md R112). -/
theorem execAll_start_ticks {s : State} {th : Word16} (hinv : Inv s) (hr : s.run = false) (hm : s.mph = .ready)
    (hth : s.cfg.tempoTable[s.tidx.toNat]? = some th) :
    ∃ m, execAll (.start :: ticks th.toNat) s = .next m ∧ Inv m ∧ m.suc.val = 1 ∧
      ∀ {p : Part}, p ∉ [Part.tovf, .acc, .suc, .faults] → Same p s.resetSequencer.enterPlaying m := by
  have hstart := exec_start_of_idle hm hr
  obtain ⟨th', hth', hpos, -⟩ := Config.tempoAt_of_lt ((Config.wf_iff _).1 hinv.wf.1) hinv.tidxLt
  obtain rfl : th' = th := Option.some.inj (hth'.symm.trans hth)
  obtain ⟨m, hticks, -, hreach⟩ := execAll_ticks (s := s.resetSequencer.enterPlaying) rfl rfl hth le_rfl
  have hminv := execAll_keeps_inv (fun _ => format_of_mem_ticks) (exec_keeps_inv rfl hinv hstart) hticks
  exact ⟨m, execAll_cons_eq_next.2 ⟨_, hstart, hticks⟩, hminv, (hreach rfl hpos).1,
    fun hp => execAll_ticks_same hp hticks⟩

end Sys2Proof.Safety

namespace Sys2Proof

open Sys2Proof.Machine Sys2Proof.Safety

/-- Settles O32: a period is `dly` ticks that count and one that emits. -/
theorem noiseEmissionPeriod : Obligations.NoiseEmissionPeriod := by
  intro s b hinv hv hr hm hne hle hdctr hbyte k n hn
  have hs : InForce s b := ⟨hv, hr, hm, hne, hle, hbyte⟩
  obtain ⟨t, ht, h⟩ := execAll_loops_count hs (execAll_loops_periods hs hinv hdctr k) hn
  exact ⟨t, ht, h.inv, h.writes, h.rng, h.dctr, h.pwm_zero, h.pwm_succ, h.suc, h.pat, h.cfg, h.rom, h.run, h.mph⟩

/-- Settles O47: the ticks leave what START wrote but ACC, TOVF and SUC, and the audio tick's delay gate fires on the
seed. -/
theorem endToEndFirstSample : Obligations.EndToEndFirstSample := by
  intro s th b hinv hv hr hm hth hbyte hdly
  have hwf := (Config.wf_iff _).1 hinv.wf.1
  obtain ⟨m, hrun, hminv, hsuc, hkept⟩ := execAll_start_ticks hinv hr hm hth
  have hcfg : m.cfg = s.cfg := hkept (p := .cfg) (by simp)
  have hrom : m.rom = s.rom := hkept (p := .rom) (by simp)
  have hpat : m.pat = s.pat := hkept (p := .pat) (by simp)
  have hmph : m.mph = s.mph := hkept (p := .mph) (by simp)
  have hmrun : m.run = true := hkept (p := .run) (by simp)
  have hrng : m.rng = .put s.cfg.seed := hkept (p := .rng) (by simp)
  have hdctr : m.dctr = .put 0 := hkept (p := .dctr) (by simp)
  have hwrites : m.writes = s.writes := hkept (p := .writes) (by simp)
  have hforce : InForce m b := {
    noise := by rw [hcfg, hv]
    playing := hmrun
    ready := hmph.trans hm
    suc_ne := by rw [hsuc]; decide
    suc_le := by rw [hsuc, hcfg]; exact hwf.len.1
    byte := by rw [hrom, hpat, hcfg, hsuc]; exact hbyte }
  have hloop := execAll_loop hminv hforce
  rw [hcfg, State.noiseStage_fires_of_rng_ne_zero (s := atStep m) (by rw [hdly]; exact BitVec.le_def.2 (Nat.zero_le _))
    (congrArg Reg.written hdctr) (congrArg Reg.written hrng)
    (by rw [atStep, hrng]; exact seed_ne_zero hwf)] at hloop
  refine ⟨m, _, hrun, hsuc, hwrites, hloop, ?_, ?_, ?_⟩
  · simp [atStep, hsuc]
  · simp [atStep, hcfg, hrng]
  · simp [atStep, hwrites]

end Sys2Proof

/-! The LFSR's cycles (40_lfsr.md R96). The output bits of a run obey `a(n+k) = a(n+1) + a(n)`, so they make up a module
over polynomials in the delay, and the period of the run is the order of a root of `X^k = X + 1`. -/

namespace Sys2Proof.Machine

open Sys2Proof Polynomial

/-! The order of a root of `X^15 = X + 1` and of `X^7 = X + 1` in characteristic 2. -/

section Order

theorem pow_mul_two_of_pow_eq {R : Type} [Monoid R] {x a : R} {n : Nat} (h : x ^ n = a) : x ^ (n * 2) = a ^ 2 := by
  rw [pow_mul, h]

/-- A root of `X^(k+1) = X + 1` is a unit, with inverse `x^k - 1`. -/
theorem pow_eq_one_of_pow_succ_eq_self {R : Type} [CommRing R] {x : R} {k n : Nat}
    (hx : x ^ (k + 1) = x + 1) (h : x ^ (n + 1) = x) : x ^ n = 1 := by
  linear_combination (x ^ k - 1) * h + (1 - x ^ n) * hx

variable {R : Type} [CommRing R] [CharP R 2] {x : R}

/-- Squaring is additive in characteristic 2, so the powers at powers of two stay sums of few powers. -/
theorem pow_two_pow_of_pow_15 (hx : x ^ 15 = x + 1) :
    x ^ 64 = x ^ 8 + x ^ 4 ∧ x ^ 128 = x ^ 8 + x ^ 2 + x ∧ x ^ 512 = x ^ 8 + x ^ 2 ∧ x ^ 1024 = x ^ 4 + x ^ 2 + x ∧
      x ^ 4096 = x ^ 8 + x ^ 4 + x ^ 2 + x ∧ x ^ 32768 = x := by
  have h16 : x ^ 16 = x ^ 2 + x := by grind
  have h32 : x ^ 32 = x ^ 4 + x ^ 2 := (pow_mul_two_of_pow_eq h16).trans (by grind)
  have h64 : x ^ 64 = x ^ 8 + x ^ 4 := (pow_mul_two_of_pow_eq h32).trans (by grind)
  have h128 : x ^ 128 = x ^ 8 + x ^ 2 + x := (pow_mul_two_of_pow_eq h64).trans (by grind)
  have h256 : x ^ 256 = x ^ 4 + x := (pow_mul_two_of_pow_eq h128).trans (by grind)
  have h512 : x ^ 512 = x ^ 8 + x ^ 2 := (pow_mul_two_of_pow_eq h256).trans (by grind)
  have h1024 : x ^ 1024 = x ^ 4 + x ^ 2 + x := (pow_mul_two_of_pow_eq h512).trans (by grind)
  have h2048 : x ^ 2048 = x ^ 8 + x ^ 4 + x ^ 2 := (pow_mul_two_of_pow_eq h1024).trans (by grind)
  have h4096 : x ^ 4096 = x ^ 8 + x ^ 4 + x ^ 2 + x := (pow_mul_two_of_pow_eq h2048).trans (by grind)
  have h8192 : x ^ 8192 = x ^ 8 + x ^ 4 + x := (pow_mul_two_of_pow_eq h4096).trans (by grind)
  have h16384 : x ^ 16384 = x ^ 8 + x := (pow_mul_two_of_pow_eq h8192).trans (by grind)
  exact ⟨h64, h128, h512, h1024, h4096, (pow_mul_two_of_pow_eq h16384).trans (by grind)⟩

theorem pow_217_ne_one [Nontrivial R] (hx : x ^ 15 = x + 1) : x ^ 217 ≠ 1 := by
  intro h
  obtain ⟨h64, h128, -⟩ := pow_two_pow_of_pow_15 hx
  have hprod : (x ^ 8 + x ^ 2 + x) * (x ^ 8 + x ^ 4) * x ^ 25 = 1 := by
    rw [← h, ← h128, ← h64]
    ring
  clear h h64 h128
  exact one_ne_zero (by grind : (1 : R) = 0)

theorem pow_1057_ne_one [Nontrivial R] (hx : x ^ 15 = x + 1) : x ^ 1057 ≠ 1 := by
  intro h
  obtain ⟨-, -, -, h1024, -⟩ := pow_two_pow_of_pow_15 hx
  have hprod : (x ^ 4 + x ^ 2 + x) * x ^ 33 = 1 := by
    rw [← h, ← h1024]
    ring
  clear h h1024
  exact one_ne_zero (by grind : (1 : R) = 0)

theorem pow_4681_ne_one [Nontrivial R] (hx : x ^ 15 = x + 1) : x ^ 4681 ≠ 1 := by
  intro h
  obtain ⟨h64, -, h512, -, h4096, -⟩ := pow_two_pow_of_pow_15 hx
  have hprod : (x ^ 8 + x ^ 4 + x ^ 2 + x) * (x ^ 8 + x ^ 2) * (x ^ 8 + x ^ 4) * x ^ 9 = 1 := by
    rw [← h, ← h4096, ← h512, ← h64]
    ring
  clear h h64 h512 h4096
  exact one_ne_zero (by grind : (1 : R) = 0)

/-- The order is `2^15 - 1 = 7 * 31 * 151`: none of the quotients by a prime is a period. -/
theorem orderOf_eq_32767 [Nontrivial R] (hx : x ^ 15 = x + 1) : orderOf x = 32767 := by
  obtain ⟨-, -, -, -, -, h32768⟩ := pow_two_pow_of_pow_15 hx
  refine orderOf_eq_of_pow_and_pow_div_prime (by decide) (pow_eq_one_of_pow_succ_eq_self hx h32768) fun p hp hdvd => ?_
  have hdvd : p ∣ 7 * 31 * 151 := hdvd
  rw [hp.dvd_mul, hp.dvd_mul, Nat.prime_dvd_prime_iff_eq hp (by norm_num), Nat.prime_dvd_prime_iff_eq hp (by norm_num),
    Nat.prime_dvd_prime_iff_eq hp (by norm_num)] at hdvd
  rcases hdvd with (rfl | rfl) | rfl
  · exact pow_4681_ne_one hx
  · exact pow_1057_ne_one hx
  · exact pow_217_ne_one hx

/-- The order is the prime `2^7 - 1`. -/
theorem orderOf_eq_127 [Nontrivial R] (hx : x ^ 7 = x + 1) : orderOf x = 127 := by
  have h8 : x ^ 8 = x ^ 2 + x := by grind
  have h16 : x ^ 16 = x ^ 4 + x ^ 2 := (pow_mul_two_of_pow_eq h8).trans (by grind)
  have h32 : x ^ 32 = x ^ 4 + x ^ 2 + x := (pow_mul_two_of_pow_eq h16).trans (by grind)
  have h64 : x ^ 64 = x ^ 4 + x := (pow_mul_two_of_pow_eq h32).trans (by grind)
  have h128 : x ^ 128 = x := (pow_mul_two_of_pow_eq h64).trans (by grind)
  have hprime : Fact (Nat.Prime 127) := ⟨by norm_num⟩
  refine orderOf_eq_prime (pow_eq_one_of_pow_succ_eq_self hx h128) fun hone => ?_
  rw [hone] at hx
  exact one_ne_zero (by grind : (1 : R) = 0)

end Order

/-! The ring in which the output bits of a run have a root. -/

section Output

/-- The delay of a sequence of bits by one place. -/
def delay : Module.End (ZMod 2) (Nat → ZMod 2) := LinearMap.funLeft (ZMod 2) (ZMod 2) (· + 1)

theorem delay_pow_apply (n : Nat) (a : Nat → ZMod 2) (m : Nat) : (delay ^ n) a m = a (m + n) := by
  induction n generalizing m with
  | zero => rfl
  | succ n ih => rw [pow_succ', Module.End.mul_apply, Nat.add_comm n, ← Nat.add_assoc, ← ih]; rfl

/-- The polynomials in the delay that annihilate a sequence: the linear recurrences it obeys. -/
noncomputable def recurrences (a : Nat → ZMod 2) : Ideal (ZMod 2)[X] :=
  Ideal.torsionOf (ZMod 2)[X] (Module.AEval' delay) (Module.AEval'.of delay a)

theorem mem_recurrences {a : Nat → ZMod 2} {p : (ZMod 2)[X]} : p ∈ recurrences a ↔ aeval delay p a = 0 := by
  rw [recurrences, Ideal.mem_torsionOf_iff, ← Module.AEval.of_aeval_smul, LinearEquiv.map_eq_zero_iff]
  rfl

/-- The delay as it acts on a sequence, up to the recurrences the sequence obeys. -/
noncomputable def delayRoot (a : Nat → ZMod 2) : (ZMod 2)[X] ⧸ recurrences a := Ideal.Quotient.mk _ X

theorem delayRoot_pow_eq_iff {a : Nat → ZMod 2} {i j : Nat} :
    delayRoot a ^ i = delayRoot a ^ j ↔ ∀ m, a (m + i) = a (m + j) := by
  rw [delayRoot, ← map_pow, ← map_pow, Ideal.Quotient.eq, mem_recurrences, map_sub, aeval_X_pow, aeval_X_pow,
    LinearMap.sub_apply, sub_eq_zero, funext_iff]
  simp only [delay_pow_apply]

theorem delayRoot_pow_eq_of_recurrence {a : Nat → ZMod 2} {k : Nat} (h : ∀ m, a (m + k) = a (m + 1) + a m) :
    delayRoot a ^ k = delayRoot a + 1 := by
  rw [delayRoot, ← map_pow, ← map_one (Ideal.Quotient.mk _), ← map_add, Ideal.Quotient.eq, mem_recurrences, map_sub,
    map_add, aeval_X_pow, aeval_X, map_one, LinearMap.sub_apply, sub_eq_zero]
  funext m
  rw [delay_pow_apply, h]
  rfl

/-- Of a sequence that is not 0 the ring is not trivial, and has characteristic 2. -/
theorem nontrivial_and_charP_two {a : Nat → ZMod 2} (h : a ≠ 0) :
    Nontrivial ((ZMod 2)[X] ⧸ recurrences a) ∧ CharP ((ZMod 2)[X] ⧸ recurrences a) 2 := by
  have hnontrivial : Nontrivial ((ZMod 2)[X] ⧸ recurrences a) := by
    rw [Ideal.Quotient.nontrivial_iff, Ideal.ne_top_iff_one, mem_recurrences, map_one]
    exact h
  exact ⟨hnontrivial, charP_of_injective_algebraMap (algebraMap (ZMod 2) _).injective 2⟩

end Output

/-! The runs of the LFSR as shift registers of `k + 1` bits. -/

/-- In the run bits `k`..1 shift down and the feedback enters at bit `k` (40_lfsr.md R91, R92). -/
structure IsShiftRegister (k : Nat) (states : Nat → Word16) : Prop where
  shift : ∀ n i, i < k → (states (n + 1)).getLsbD i = (states n).getLsbD (i + 1)
  feedback : ∀ n, (states (n + 1)).getLsbD k = ((states n).getLsbD 1 ^^ (states n).getLsbD 0)

/-- The bits shifted out of a run. -/
def outputs (states : Nat → Word16) (n : Nat) : ZMod 2 := if (states n).getLsbD 0 then 1 else 0

theorem outputs_eq_iff {states : Nat → Word16} {m n : Nat} :
    outputs states m = outputs states n ↔ (states m).getLsbD 0 = (states n).getLsbD 0 := by
  unfold outputs
  cases (states m).getLsbD 0 <;> cases (states n).getLsbD 0 <;> decide

section Register

variable {k : Nat} {states : Nat → Word16} (h : IsShiftRegister k states)
include h

/-- Each bit of the register is shifted out later. -/
theorem IsShiftRegister.getLsbD_eq (n : Nat) {i : Nat} (hi : i ≤ k) :
    (states n).getLsbD i = (states (n + i)).getLsbD 0 := by
  induction i generalizing n with
  | zero => rfl
  | succ i ih => rw [← h.shift n i hi, ih (n + 1) (Nat.le_of_succ_le hi), Nat.add_assoc, Nat.add_comm 1]

/-- The recurrence of the outputs is the feedback polynomial `X^(k+1) + X + 1` (40_lfsr.md R96). -/
theorem IsShiftRegister.outputs_recurrence (hk : 1 ≤ k) (n : Nat) :
    outputs states (n + (k + 1)) = outputs states (n + 1) + outputs states n := by
  have hout : (states (n + (k + 1))).getLsbD 0 = ((states (n + 1)).getLsbD 0 ^^ (states n).getLsbD 0) := by
    rw [Nat.add_comm k 1, ← Nat.add_assoc, ← h.getLsbD_eq (n + 1) le_rfl, h.feedback n, h.getLsbD_eq n hk]
  unfold outputs
  rw [hout]
  cases (states (n + 1)).getLsbD 0 <;> cases (states n).getLsbD 0 <;> decide

theorem IsShiftRegister.delayRoot_pow (hk : 1 ≤ k) :
    delayRoot (outputs states) ^ (k + 1) = delayRoot (outputs states) + 1 :=
  delayRoot_pow_eq_of_recurrence (h.outputs_recurrence hk)

/-- Powers of the root that are equal stand for states with the same register. -/
theorem IsShiftRegister.getLsbD_eq_of_pow_eq {m n : Nat}
    (hpow : delayRoot (outputs states) ^ m = delayRoot (outputs states) ^ n) {i : Nat} (hi : i ≤ k) :
    (states m).getLsbD i = (states n).getLsbD i := by
  have hout := delayRoot_pow_eq_iff.1 hpow i
  rw [outputs_eq_iff, Nat.add_comm i, Nat.add_comm i] at hout
  rw [h.getLsbD_eq m hi, h.getLsbD_eq n hi, hout]

/-- A register that is not 0 shifts out a 1. -/
theorem IsShiftRegister.outputs_ne_zero {i : Nat} (hi : i ≤ k) (hbit : (states 0).getLsbD i = true) :
    outputs states ≠ 0 := by
  intro hzero
  have hout := congrFun hzero i
  rw [h.getLsbD_eq 0 hi, Nat.zero_add] at hbit
  simp [outputs, hbit] at hout

end Register

section Cycle

variable {f : LowresForm} {hi : Bool} {c : Word16}

theorem advanceN_add (m n : Nat) (c : Word16) :
    advanceN f hi (m + n) c = advanceN f hi n (advanceN f hi m c) := by
  induction m generalizing c with
  | zero => rw [Nat.zero_add]; rfl
  | succ m ih => rw [Nat.succ_add]; exact ih (advance f c hi)

/-- A state that comes again brings its outputs again, so the powers of the root are equal. -/
theorem delayRoot_pow_eq_of_advanceN_eq {m n : Nat} (h : advanceN f hi m c = advanceN f hi n c) :
    delayRoot (outputs (advanceN f hi · c)) ^ m = delayRoot (outputs (advanceN f hi · c)) ^ n := by
  refine delayRoot_pow_eq_iff.2 fun j => outputs_eq_iff.2 ?_
  rw [Nat.add_comm j, Nat.add_comm j, advanceN_add, advanceN_add, h]

/-- No state before the order of the root is the first one again. -/
theorem advanceN_ne_of_lt_orderOf {n : Nat} (hpos : 0 < n)
    (hlt : n < orderOf (delayRoot (outputs (advanceN f hi · c)))) : advanceN f hi n c ≠ c := by
  intro h
  have hpow := delayRoot_pow_eq_of_advanceN_eq (m := n) (n := 0) (c := c) h
  rw [pow_zero] at hpow
  exact pow_ne_one_of_lt_orderOf hpos.ne' hlt hpow

end Cycle

/-! The 15-bit cycle. -/

/-- A state with bit 15 clear is not 0 exactly between 0 and `2^15`. -/
theorem toNat_mem_Ioo_iff {c : Word16} : c.toNat ∈ Finset.Ioo 0 32768 ↔ c ≠ 0#16 ∧ c.getLsbD 15 = false := by
  have hmsb : c.getLsbD 15 = c.msb := rfl
  rw [Finset.mem_Ioo, hmsb, BitVec.msb_eq_false_iff_two_mul_lt]
  bv_omega

theorem exists_bit_of_ne_zero {c : Word16} (hne : c ≠ 0#16) (h15 : c.getLsbD 15 = false) :
    ∃ i ≤ 14, c.getLsbD i = true := by
  by_contra! hclear
  refine hne (BitVec.eq_of_getLsbD_eq fun i hi => ?_)
  rw [BitVec.getLsbD_zero]
  rcases Nat.lt_succ_iff_lt_or_eq.1 hi with hlt | rfl
  · exact Bool.eq_false_iff.2 (hclear i (Nat.le_of_lt_succ hlt))
  · exact h15

section High

variable {f : LowresForm} {c : Word16}

/-- Every state of a run from a non-zero state with bit 15 clear is one (40_lfsr.md R95). -/
theorem advanceN_ne_zero {hi : Bool} (hne : c ≠ 0#16) (h15 : c.getLsbD 15 = false) (n : Nat) :
    advanceN f hi n c ≠ 0#16 ∧ (advanceN f hi n c).getLsbD 15 = false := by
  induction n with
  | zero => exact ⟨hne, h15⟩
  | succ n ih => rw [advanceN_succ]; exact advanceKeepsNonzero f _ hi ih.1 ih.2

variable (hne : c ≠ 0#16) (h15 : c.getLsbD 15 = false)
include hne h15

theorem isShiftRegister_advanceHigh : IsShiftRegister 14 (advanceN f true · c) where
  shift n i hi := by
    obtain ⟨-, -, hlow⟩ := highStepBits f (advanceN f true n c)
    rw [advanceN_succ, hlow i hi]
  feedback n := by
    obtain ⟨-, hfb, -⟩ := highStepBits f (advanceN f true n c)
    rw [advanceN_succ, hfb, (advanceN_ne_zero hne h15 n).2, Bool.or_false]

theorem orderOf_delayRoot_advanceHigh : orderOf (delayRoot (outputs (advanceN f true · c))) = 32767 := by
  have hreg := isShiftRegister_advanceHigh (f := f) hne h15
  obtain ⟨i, hi, hbit⟩ := exists_bit_of_ne_zero hne h15
  obtain ⟨hnontrivial, hchar⟩ := nontrivial_and_charP_two (hreg.outputs_ne_zero hi hbit)
  exact orderOf_eq_32767 (hreg.delayRoot_pow (by decide))

theorem advanceHigh_period : advanceN f true 32767 c = c := by
  have hreg := isShiftRegister_advanceHigh (f := f) hne h15
  have hpow := pow_orderOf_eq_one (delayRoot (outputs (advanceN f true · c)))
  rw [orderOf_delayRoot_advanceHigh hne h15, ← pow_zero] at hpow
  refine BitVec.eq_of_getLsbD_eq fun i hi => ?_
  rcases Nat.lt_succ_iff_lt_or_eq.1 hi with hlt | rfl
  · exact hreg.getLsbD_eq_of_pow_eq hpow (Nat.le_of_lt_succ hlt)
  · rw [(advanceN_ne_zero hne h15 32767).2, h15]

/-- Within a period no state comes twice. -/
theorem injOn_advanceHigh : Set.InjOn (fun n => (advanceN f true n c).toNat) (Finset.range 32767) := by
  intro m hm n hn heq
  refine pow_injOn_Iio_orderOf (x := delayRoot (outputs (advanceN f true · c))) ?_ ?_
    (delayRoot_pow_eq_of_advanceN_eq (BitVec.eq_of_toNat_eq heq)) <;>
  rw [orderOf_delayRoot_advanceHigh hne h15]
  · exact Finset.mem_range.1 hm
  · exact Finset.mem_range.1 hn

/-- So a period has as many states as there are, and visits each. -/
theorem exists_advanceHigh_eq {d : Word16} (hdne : d ≠ 0#16) (hd15 : d.getLsbD 15 = false) :
    ∃ n, n < 32767 ∧ advanceN f true n c = d := by
  have hmaps : Set.MapsTo (fun n => (advanceN f true n c).toNat) (Finset.range 32767) (Finset.Ioo 0 32768) :=
    fun n _ => toNat_mem_Ioo_iff.2 (advanceN_ne_zero hne h15 n)
  have hcard : (Finset.Ioo 0 32768).card ≤ (Finset.range 32767).card := by rw [Nat.card_Ioo, Finset.card_range]
  obtain ⟨n, hn, heq⟩ := Finset.surjOn_of_injOn_of_card_le _ hmaps (injOn_advanceHigh (f := f) hne h15) hcard
    (toNat_mem_Ioo_iff.2 ⟨hdne, hd15⟩)
  exact ⟨n, Finset.mem_range.1 hn, BitVec.eq_of_toNat_eq heq⟩

end High

/-! The PINNED 7-bit cycle. -/

section Pinned

variable {c : Word16}

/-- Bits 15..7 never change (40_lfsr.md R92). -/
theorem getLsbD_advanceN_pinned (n : Nat) {i : Nat} (hi : 7 ≤ i) :
    (advanceN .pinned false n c).getLsbD i = c.getLsbD i := by
  induction n with
  | zero => rfl
  | succ n ih =>
    obtain ⟨hhigh, -⟩ := pinnedStepBits (advanceN .pinned false n c)
    rw [advanceN_succ, hhigh i hi, ih]

theorem isShiftRegister_advancePinned : IsShiftRegister 6 (advanceN .pinned false · c) where
  shift n i hi := by
    obtain ⟨-, -, hlow⟩ := pinnedStepBits (advanceN .pinned false n c)
    rw [advanceN_succ, hlow i hi]
  feedback n := by
    obtain ⟨-, hfb, -⟩ := pinnedStepBits (advanceN .pinned false n c)
    rw [advanceN_succ, hfb]

theorem exists_bit_of_low_ne_zero (h : c.extractLsb' 0 7 ≠ 0#7) : ∃ i ≤ 6, c.getLsbD i = true := by
  by_contra! hclear
  refine h (BitVec.eq_of_getLsbD_eq fun i hi => ?_)
  rw [BitVec.getLsbD_extractLsb', BitVec.getLsbD_zero, Nat.zero_add,
    Bool.eq_false_iff.2 (hclear i (Nat.le_of_lt_succ hi)), Bool.and_false]

theorem orderOf_delayRoot_advancePinned (h : c.extractLsb' 0 7 ≠ 0#7) :
    orderOf (delayRoot (outputs (advanceN .pinned false · c))) = 127 := by
  have hreg := isShiftRegister_advancePinned (c := c)
  obtain ⟨i, hi, hbit⟩ := exists_bit_of_low_ne_zero h
  obtain ⟨hnontrivial, hchar⟩ := nontrivial_and_charP_two (hreg.outputs_ne_zero hi hbit)
  exact orderOf_eq_127 (hreg.delayRoot_pow (by decide))

theorem advancePinned_period (h : c.extractLsb' 0 7 ≠ 0#7) : advanceN .pinned false 127 c = c := by
  have hreg := isShiftRegister_advancePinned (c := c)
  have hpow := pow_orderOf_eq_one (delayRoot (outputs (advanceN .pinned false · c)))
  rw [orderOf_delayRoot_advancePinned h, ← pow_zero] at hpow
  refine BitVec.eq_of_getLsbD_eq fun i _ => ?_
  by_cases hi : i ≤ 6
  · exact hreg.getLsbD_eq_of_pow_eq hpow hi
  · exact getLsbD_advanceN_pinned 127 (Nat.lt_of_not_le hi)

theorem extractLsb'_advanceN_pinned (n : Nat) :
    (advanceN .pinned false n c).extractLsb' 7 9 = c.extractLsb' 7 9 := by
  refine BitVec.eq_of_getLsbD_eq fun i _ => ?_
  rw [BitVec.getLsbD_extractLsb', BitVec.getLsbD_extractLsb', getLsbD_advanceN_pinned n (Nat.le_add_right 7 i)]

end Pinned

end Sys2Proof.Machine

namespace Sys2Proof

open Sys2Proof.Machine

/-- Settles O39: the period is the order of the root, and the non-zero states with bit 15 clear are as many. -/
theorem highCycleIsMaximal : Obligations.HighCycleIsMaximal :=
  fun _ _ hne h15 => ⟨advanceHigh_period hne h15,
    fun _ hpos hlt => advanceN_ne_of_lt_orderOf hpos (hlt.trans_eq (orderOf_delayRoot_advanceHigh hne h15).symm),
    fun _ => exists_advanceHigh_eq hne h15⟩

/-- Settles O40: the period is the order of the root of the low 7 bits, and the step keeps the rest. -/
theorem pinnedCycleIs127 : Obligations.PinnedCycleIs127 :=
  fun _ h => ⟨advancePinned_period h,
    fun _ hpos hlt => advanceN_ne_of_lt_orderOf hpos (hlt.trans_eq (orderOf_delayRoot_advancePinned h).symm),
    extractLsb'_advanceN_pinned⟩

end Sys2Proof
